-- ==== Sys2Proof/Word.lean ====
section
/-!
DEFINITION. The word types of the ST10 CPU core (00_scope.md R6, R8): bytes, words, 24-bit physical addresses and the
two data widths of an instruction.
-/

namespace Sys2Proof

/-- 8-bit data (00_scope.md R6). -/
abbrev Byte := BitVec 8
/-- 16-bit data (00_scope.md R6). -/
abbrev Word := BitVec 16
/-- 24-bit physical address (20_memory.md R60). -/
abbrev Addr := BitVec 24

/-- The data width of an instruction: mnemonics with the suffix B move bytes, the others words (20_memory.md R85). -/
inductive Width where
  | byte
  | word
  deriving DecidableEq, Repr

/-- Bits of a width. -/
@[reducible] def Width.bits : Width → Nat
  | .byte => 8
  | .word => 16

/-- Zero extension of a short constant to 16 bits (30_encoding.md R105: short constants are always zero-extended). -/
@[reducible] def zext16 {n : Nat} (v : BitVec n) : Word := v.setWidth 16

end Sys2Proof
end

