-- ==== Sys2Proof/Syntax.lean ====
section
/-!
DEFINITION. The syntax of the instruction set: one constructor of `Instr` for each of the 256 rows of
spec/opcode_table.json, with the operand fields of 30_encoding.md R103 to R106 and R118. A field that only a
well-formed encoding can hold is exact by its type; WellFormed.lean states the one check that types do not make.
-/

namespace Sys2Proof

/-- A 4-bit register number: `Rw` or `Rb` (00_scope.md R11). -/
abbrev RegNum := BitVec 4
/-- A 2-bit pointer register number, R0 to R3 (10_state.md R23, field `ii`). -/
abbrev PtrNum := BitVec 2
/-- An 8-bit short address `reg` (20_memory.md R62). -/
abbrev ShortReg := BitVec 8
/-- An 8-bit word offset into the bit-addressable space (20_memory.md R64). -/
abbrev BitOff := BitVec 8
/-- A bit position 0 to 15 (20_memory.md R65). -/
abbrev BitPos := BitVec 4
/-- An 8-bit signed word displacement (46_jump_call.md R271). -/
abbrev Rel := BitVec 8
/-- An 8-bit segment number (46_jump_call.md R270). -/
abbrev SegNum := BitVec 8
/-- A 10-bit page number (48_system_control.md R330). -/
abbrev PageNum := BitVec 10
/-- A 7-bit trap number (46_jump_call.md R286). -/
abbrev TrapNum := BitVec 7
/-- The 2-bit field `#data2` of ATOMIC and EXT*: the sequence length minus 1 (48_system_control.md R330). -/
abbrev SeqLen := BitVec 2

/-- The sixteen condition codes (10_state.md R32), in the order of their codes 0h to Fh. -/
inductive Cond where
  | uc | net | z | nz | v | nv | n | nn | c | nc | sgt | sle | slt | sge | ugt | ule
  deriving DecidableEq, Repr

/-- The instructions: one constructor per row of spec/opcode_table.json. -/
inductive Instr where
  /-- ADD Rwn, Rwm: `00 nm` (R143). -/
  | addRwRw (n : RegNum) (m : RegNum)
  /-- ADD reg, mem: `02 RR MM MM` (R143). -/
  | addRegMem (r : ShortReg) (a : Word)
  /-- ADD mem, reg: `04 RR MM MM` (R143). -/
  | addMemReg (a : Word) (r : ShortReg)
  /-- ADD reg, #data16: `06 RR ## ##` (R143). -/
  | addRegImm (r : ShortReg) (d : Word)
  /-- ADD Rwn, #data3: `08 n:0###` (R143). -/
  | addRwImm3 (n : RegNum) (d : BitVec 3)
  /-- ADD Rwn, [Rwi]: `08 n:10ii` (R143). -/
  | addRwInd (n : RegNum) (i : PtrNum)
  /-- ADD Rwn, [Rwi+]: `08 n:11ii` (R143). -/
  | addRwInc (n : RegNum) (i : PtrNum)
  /-- ADDB Rbn, Rbm: `01 nm` (R144). -/
  | addbRbRb (n : RegNum) (m : RegNum)
  /-- ADDB reg, mem: `03 RR MM MM` (R144). -/
  | addbRegMem (r : ShortReg) (a : Word)
  /-- ADDB mem, reg: `05 RR MM MM` (R144). -/
  | addbMemReg (a : Word) (r : ShortReg)
  /-- ADDB reg, #data16: `07 RR ## ##` (R144). -/
  | addbRegImm (r : ShortReg) (d : Word)
  /-- ADDB Rbn, #data3: `09 n:0###` (R144). -/
  | addbRbImm3 (n : RegNum) (d : BitVec 3)
  /-- ADDB Rbn, [Rwi]: `09 n:10ii` (R144). -/
  | addbRbInd (n : RegNum) (i : PtrNum)
  /-- ADDB Rbn, [Rwi+]: `09 n:11ii` (R144). -/
  | addbRbInc (n : RegNum) (i : PtrNum)
  /-- ADDC Rwn, Rwm: `10 nm` (R145). -/
  | addcRwRw (n : RegNum) (m : RegNum)
  /-- ADDC reg, mem: `12 RR MM MM` (R145). -/
  | addcRegMem (r : ShortReg) (a : Word)
  /-- ADDC mem, reg: `14 RR MM MM` (R145). -/
  | addcMemReg (a : Word) (r : ShortReg)
  /-- ADDC reg, #data16: `16 RR ## ##` (R145). -/
  | addcRegImm (r : ShortReg) (d : Word)
  /-- ADDC Rwn, #data3: `18 n:0###` (R145). -/
  | addcRwImm3 (n : RegNum) (d : BitVec 3)
  /-- ADDC Rwn, [Rwi]: `18 n:10ii` (R145). -/
  | addcRwInd (n : RegNum) (i : PtrNum)
  /-- ADDC Rwn, [Rwi+]: `18 n:11ii` (R145). -/
  | addcRwInc (n : RegNum) (i : PtrNum)
  /-- ADDCB Rbn, Rbm: `11 nm` (R146). -/
  | addcbRbRb (n : RegNum) (m : RegNum)
  /-- ADDCB reg, mem: `13 RR MM MM` (R146). -/
  | addcbRegMem (r : ShortReg) (a : Word)
  /-- ADDCB mem, reg: `15 RR MM MM` (R146). -/
  | addcbMemReg (a : Word) (r : ShortReg)
  /-- ADDCB reg, #data16: `17 RR ## ##` (R146). -/
  | addcbRegImm (r : ShortReg) (d : Word)
  /-- ADDCB Rbn, #data3: `19 n:0###` (R146). -/
  | addcbRbImm3 (n : RegNum) (d : BitVec 3)
  /-- ADDCB Rbn, [Rwi]: `19 n:10ii` (R146). -/
  | addcbRbInd (n : RegNum) (i : PtrNum)
  /-- ADDCB Rbn, [Rwi+]: `19 n:11ii` (R146). -/
  | addcbRbInc (n : RegNum) (i : PtrNum)
  /-- SUB Rwn, Rwm: `20 nm` (R147). -/
  | subRwRw (n : RegNum) (m : RegNum)
  /-- SUB reg, mem: `22 RR MM MM` (R147). -/
  | subRegMem (r : ShortReg) (a : Word)
  /-- SUB mem, reg: `24 RR MM MM` (R147). -/
  | subMemReg (a : Word) (r : ShortReg)
  /-- SUB reg, #data16: `26 RR ## ##` (R147). -/
  | subRegImm (r : ShortReg) (d : Word)
  /-- SUB Rwn, #data3: `28 n:0###` (R147). -/
  | subRwImm3 (n : RegNum) (d : BitVec 3)
  /-- SUB Rwn, [Rwi]: `28 n:10ii` (R147). -/
  | subRwInd (n : RegNum) (i : PtrNum)
  /-- SUB Rwn, [Rwi+]: `28 n:11ii` (R147). -/
  | subRwInc (n : RegNum) (i : PtrNum)
  /-- SUBB Rbn, Rbm: `21 nm` (R148). -/
  | subbRbRb (n : RegNum) (m : RegNum)
  /-- SUBB reg, mem: `23 RR MM MM` (R148). -/
  | subbRegMem (r : ShortReg) (a : Word)
  /-- SUBB mem, reg: `25 RR MM MM` (R148). -/
  | subbMemReg (a : Word) (r : ShortReg)
  /-- SUBB reg, #data16: `27 RR ## ##` (R148). -/
  | subbRegImm (r : ShortReg) (d : Word)
  /-- SUBB Rbn, #data3: `29 n:0###` (R148). -/
  | subbRbImm3 (n : RegNum) (d : BitVec 3)
  /-- SUBB Rbn, [Rwi]: `29 n:10ii` (R148). -/
  | subbRbInd (n : RegNum) (i : PtrNum)
  /-- SUBB Rbn, [Rwi+]: `29 n:11ii` (R148). -/
  | subbRbInc (n : RegNum) (i : PtrNum)
  /-- SUBC Rwn, Rwm: `30 nm` (R149). -/
  | subcRwRw (n : RegNum) (m : RegNum)
  /-- SUBC reg, mem: `32 RR MM MM` (R149). -/
  | subcRegMem (r : ShortReg) (a : Word)
  /-- SUBC mem, reg: `34 RR MM MM` (R149). -/
  | subcMemReg (a : Word) (r : ShortReg)
  /-- SUBC reg, #data16: `36 RR ## ##` (R149). -/
  | subcRegImm (r : ShortReg) (d : Word)
  /-- SUBC Rwn, #data3: `38 n:0###` (R149). -/
  | subcRwImm3 (n : RegNum) (d : BitVec 3)
  /-- SUBC Rwn, [Rwi]: `38 n:10ii` (R149). -/
  | subcRwInd (n : RegNum) (i : PtrNum)
  /-- SUBC Rwn, [Rwi+]: `38 n:11ii` (R149). -/
  | subcRwInc (n : RegNum) (i : PtrNum)
  /-- SUBCB Rbn, Rbm: `31 nm` (R150). -/
  | subcbRbRb (n : RegNum) (m : RegNum)
  /-- SUBCB reg, mem: `33 RR MM MM` (R150). -/
  | subcbRegMem (r : ShortReg) (a : Word)
  /-- SUBCB mem, reg: `35 RR MM MM` (R150). -/
  | subcbMemReg (a : Word) (r : ShortReg)
  /-- SUBCB reg, #data16: `37 RR ## ##` (R150). -/
  | subcbRegImm (r : ShortReg) (d : Word)
  /-- SUBCB Rbn, #data3: `39 n:0###` (R150). -/
  | subcbRbImm3 (n : RegNum) (d : BitVec 3)
  /-- SUBCB Rbn, [Rwi]: `39 n:10ii` (R150). -/
  | subcbRbInd (n : RegNum) (i : PtrNum)
  /-- SUBCB Rbn, [Rwi+]: `39 n:11ii` (R150). -/
  | subcbRbInc (n : RegNum) (i : PtrNum)
  /-- CMP Rwn, Rwm: `40 nm` (R211). -/
  | cmpRwRw (n : RegNum) (m : RegNum)
  /-- CMP reg, mem: `42 RR MM MM` (R211). -/
  | cmpRegMem (r : ShortReg) (a : Word)
  /-- CMP reg, #data16: `46 RR ## ##` (R211). -/
  | cmpRegImm (r : ShortReg) (d : Word)
  /-- CMP Rwn, #data3: `48 n:0###` (R211). -/
  | cmpRwImm3 (n : RegNum) (d : BitVec 3)
  /-- CMP Rwn, [Rwi]: `48 n:10ii` (R211). -/
  | cmpRwInd (n : RegNum) (i : PtrNum)
  /-- CMP Rwn, [Rwi+]: `48 n:11ii` (R211). -/
  | cmpRwInc (n : RegNum) (i : PtrNum)
  /-- CMPB Rbn, Rbm: `41 nm` (R212). -/
  | cmpbRbRb (n : RegNum) (m : RegNum)
  /-- CMPB reg, mem: `43 RR MM MM` (R212). -/
  | cmpbRegMem (r : ShortReg) (a : Word)
  /-- CMPB reg, #data16: `47 RR ## ##` (R212). -/
  | cmpbRegImm (r : ShortReg) (d : Word)
  /-- CMPB Rbn, #data3: `49 n:0###` (R212). -/
  | cmpbRbImm3 (n : RegNum) (d : BitVec 3)
  /-- CMPB Rbn, [Rwi]: `49 n:10ii` (R212). -/
  | cmpbRbInd (n : RegNum) (i : PtrNum)
  /-- CMPB Rbn, [Rwi+]: `49 n:11ii` (R212). -/
  | cmpbRbInc (n : RegNum) (i : PtrNum)
  /-- XOR Rwn, Rwm: `50 nm` (R185). -/
  | xorRwRw (n : RegNum) (m : RegNum)
  /-- XOR reg, mem: `52 RR MM MM` (R185). -/
  | xorRegMem (r : ShortReg) (a : Word)
  /-- XOR mem, reg: `54 RR MM MM` (R185). -/
  | xorMemReg (a : Word) (r : ShortReg)
  /-- XOR reg, #data16: `56 RR ## ##` (R185). -/
  | xorRegImm (r : ShortReg) (d : Word)
  /-- XOR Rwn, #data3: `58 n:0###` (R185). -/
  | xorRwImm3 (n : RegNum) (d : BitVec 3)
  /-- XOR Rwn, [Rwi]: `58 n:10ii` (R185). -/
  | xorRwInd (n : RegNum) (i : PtrNum)
  /-- XOR Rwn, [Rwi+]: `58 n:11ii` (R185). -/
  | xorRwInc (n : RegNum) (i : PtrNum)
  /-- XORB Rbn, Rbm: `51 nm` (R186). -/
  | xorbRbRb (n : RegNum) (m : RegNum)
  /-- XORB reg, mem: `53 RR MM MM` (R186). -/
  | xorbRegMem (r : ShortReg) (a : Word)
  /-- XORB mem, reg: `55 RR MM MM` (R186). -/
  | xorbMemReg (a : Word) (r : ShortReg)
  /-- XORB reg, #data16: `57 RR ## ##` (R186). -/
  | xorbRegImm (r : ShortReg) (d : Word)
  /-- XORB Rbn, #data3: `59 n:0###` (R186). -/
  | xorbRbImm3 (n : RegNum) (d : BitVec 3)
  /-- XORB Rbn, [Rwi]: `59 n:10ii` (R186). -/
  | xorbRbInd (n : RegNum) (i : PtrNum)
  /-- XORB Rbn, [Rwi+]: `59 n:11ii` (R186). -/
  | xorbRbInc (n : RegNum) (i : PtrNum)
  /-- AND Rwn, Rwm: `60 nm` (R181). -/
  | andRwRw (n : RegNum) (m : RegNum)
  /-- AND reg, mem: `62 RR MM MM` (R181). -/
  | andRegMem (r : ShortReg) (a : Word)
  /-- AND mem, reg: `64 RR MM MM` (R181). -/
  | andMemReg (a : Word) (r : ShortReg)
  /-- AND reg, #data16: `66 RR ## ##` (R181). -/
  | andRegImm (r : ShortReg) (d : Word)
  /-- AND Rwn, #data3: `68 n:0###` (R181). -/
  | andRwImm3 (n : RegNum) (d : BitVec 3)
  /-- AND Rwn, [Rwi]: `68 n:10ii` (R181). -/
  | andRwInd (n : RegNum) (i : PtrNum)
  /-- AND Rwn, [Rwi+]: `68 n:11ii` (R181). -/
  | andRwInc (n : RegNum) (i : PtrNum)
  /-- ANDB Rbn, Rbm: `61 nm` (R182). -/
  | andbRbRb (n : RegNum) (m : RegNum)
  /-- ANDB reg, mem: `63 RR MM MM` (R182). -/
  | andbRegMem (r : ShortReg) (a : Word)
  /-- ANDB mem, reg: `65 RR MM MM` (R182). -/
  | andbMemReg (a : Word) (r : ShortReg)
  /-- ANDB reg, #data16: `67 RR ## ##` (R182). -/
  | andbRegImm (r : ShortReg) (d : Word)
  /-- ANDB Rbn, #data3: `69 n:0###` (R182). -/
  | andbRbImm3 (n : RegNum) (d : BitVec 3)
  /-- ANDB Rbn, [Rwi]: `69 n:10ii` (R182). -/
  | andbRbInd (n : RegNum) (i : PtrNum)
  /-- ANDB Rbn, [Rwi+]: `69 n:11ii` (R182). -/
  | andbRbInc (n : RegNum) (i : PtrNum)
  /-- OR Rwn, Rwm: `70 nm` (R183). -/
  | orRwRw (n : RegNum) (m : RegNum)
  /-- OR reg, mem: `72 RR MM MM` (R183). -/
  | orRegMem (r : ShortReg) (a : Word)
  /-- OR mem, reg: `74 RR MM MM` (R183). -/
  | orMemReg (a : Word) (r : ShortReg)
  /-- OR reg, #data16: `76 RR ## ##` (R183). -/
  | orRegImm (r : ShortReg) (d : Word)
  /-- OR Rwn, #data3: `78 n:0###` (R183). -/
  | orRwImm3 (n : RegNum) (d : BitVec 3)
  /-- OR Rwn, [Rwi]: `78 n:10ii` (R183). -/
  | orRwInd (n : RegNum) (i : PtrNum)
  /-- OR Rwn, [Rwi+]: `78 n:11ii` (R183). -/
  | orRwInc (n : RegNum) (i : PtrNum)
  /-- ORB Rbn, Rbm: `71 nm` (R184). -/
  | orbRbRb (n : RegNum) (m : RegNum)
  /-- ORB reg, mem: `73 RR MM MM` (R184). -/
  | orbRegMem (r : ShortReg) (a : Word)
  /-- ORB mem, reg: `75 RR MM MM` (R184). -/
  | orbMemReg (a : Word) (r : ShortReg)
  /-- ORB reg, #data16: `77 RR ## ##` (R184). -/
  | orbRegImm (r : ShortReg) (d : Word)
  /-- ORB Rbn, #data3: `79 n:0###` (R184). -/
  | orbRbImm3 (n : RegNum) (d : BitVec 3)
  /-- ORB Rbn, [Rwi]: `79 n:10ii` (R184). -/
  | orbRbInd (n : RegNum) (i : PtrNum)
  /-- ORB Rbn, [Rwi+]: `79 n:11ii` (R184). -/
  | orbRbInc (n : RegNum) (i : PtrNum)
  /-- BFLDL bitoffQ, #mask8, #data8: `0A QQ @@ ##` (R195). -/
  | bfldl (q : BitOff) (mask : Byte) (d : Byte)
  /-- BFLDH bitoffQ, #mask8, #data8: `1A QQ ## @@` (R194). -/
  | bfldh (q : BitOff) (mask : Byte) (d : Byte)
  /-- BCMP bitaddrZ.z, bitaddrQ.q: `2A QQ ZZ qz` (R193). -/
  | bcmp (zz : BitOff) (z : BitPos) (qq : BitOff) (q : BitPos)
  /-- BMOVN bitaddrZ.z, bitaddrQ.q: `3A QQ ZZ qz` (R197). -/
  | bmovn (zz : BitOff) (z : BitPos) (qq : BitOff) (q : BitPos)
  /-- BMOV bitaddrZ.z, bitaddrQ.q: `4A QQ ZZ qz` (R196). -/
  | bmov (zz : BitOff) (z : BitPos) (qq : BitOff) (q : BitPos)
  /-- BOR bitaddrZ.z, bitaddrQ.q: `5A QQ ZZ qz` (R198). -/
  | bor (zz : BitOff) (z : BitPos) (qq : BitOff) (q : BitPos)
  /-- BAND bitaddrZ.z, bitaddrQ.q: `6A QQ ZZ qz` (R191). -/
  | band (zz : BitOff) (z : BitPos) (qq : BitOff) (q : BitPos)
  /-- BXOR bitaddrZ.z, bitaddrQ.q: `7A QQ ZZ qz` (R200). -/
  | bxor (zz : BitOff) (z : BitPos) (qq : BitOff) (q : BitPos)
  /-- JB bitaddrQ.q, rel: `8A QQ rr q0` (R277). -/
  | jb (qq : BitOff) (q : BitPos) (rel : Rel)
  /-- JNB bitaddrQ.q, rel: `9A QQ rr q0` (R283). -/
  | jnb (qq : BitOff) (q : BitPos) (rel : Rel)
  /-- JBC bitaddrQ.q, rel: `AA QQ rr q0` (R278). -/
  | jbc (qq : BitOff) (q : BitPos) (rel : Rel)
  /-- JNBS bitaddrQ.q, rel: `BA QQ rr q0` (R284). -/
  | jnbs (qq : BitOff) (q : BitPos) (rel : Rel)
  /-- CALLA cc, caddr: `CA c0 MM MM` (R273). -/
  | calla (cc : Cond) (a : Word)
  /-- CALLS seg, caddr: `DA ss MM MM` (R276). -/
  | calls (seg : SegNum) (a : Word)
  /-- JMPA cc, caddr: `EA c0 MM MM` (R279). -/
  | jmpa (cc : Cond) (a : Word)
  /-- JMPS seg, caddr: `FA ss MM MM` (R282). -/
  | jmps (seg : SegNum) (a : Word)
  /-- MUL Rwn, Rwm: `0B nm` (R155). -/
  | mul (n : RegNum) (m : RegNum)
  /-- MULU Rwn, Rwm: `1B nm` (R156). -/
  | mulu (n : RegNum) (m : RegNum)
  /-- PRIOR Rwn, Rwm: `2B nm` (R221). -/
  | prior (n : RegNum) (m : RegNum)
  /-- DIV Rwn: `4B nn` (R157). -/
  | div (n : RegNum)
  /-- DIVU Rwn: `5B nn` (R160). -/
  | divu (n : RegNum)
  /-- DIVL Rwn: `6B nn` (R158). -/
  | divl (n : RegNum)
  /-- DIVLU Rwn: `7B nn` (R159). -/
  | divlu (n : RegNum)
  /-- TRAP #trap7: `9B t:ttt0` (R286). -/
  | trap (t : TrapNum)
  /-- CALLI cc, [Rwn]: `AB cn` (R274). -/
  | calli (cc : Cond) (n : RegNum)
  /-- CALLR rel: `BB rr` (R275). -/
  | callr (rel : Rel)
  /-- RET`CB 00` (R304). -/
  | ret
  /-- RETS`DB 00` (R307). -/
  | rets
  /-- RETP reg: `EB RR` (R306). -/
  | retp (r : ShortReg)
  /-- RETI`FB 88` (R305). -/
  | reti
  /-- ROL Rwn, Rwm: `0C nm` (R223). -/
  | rolRwRw (n : RegNum) (m : RegNum)
  /-- ROL Rwn, #data4: `1C #n` (R223). -/
  | rolRwImm4 (n : RegNum) (d : BitVec 4)
  /-- ROR Rwn, Rwm: `2C nm` (R224). -/
  | rorRwRw (n : RegNum) (m : RegNum)
  /-- ROR Rwn, #data4: `3C #n` (R224). -/
  | rorRwImm4 (n : RegNum) (d : BitVec 4)
  /-- SHL Rwn, Rwm: `4C nm` (R225). -/
  | shlRwRw (n : RegNum) (m : RegNum)
  /-- SHL Rwn, #data4: `5C #n` (R225). -/
  | shlRwImm4 (n : RegNum) (d : BitVec 4)
  /-- SHR Rwn, Rwm: `6C nm` (R226). -/
  | shrRwRw (n : RegNum) (m : RegNum)
  /-- SHR Rwn, #data4: `7C #n` (R226). -/
  | shrRwImm4 (n : RegNum) (d : BitVec 4)
  /-- ASHR Rwn, Rwm: `AC nm` (R222). -/
  | ashrRwRw (n : RegNum) (m : RegNum)
  /-- ASHR Rwn, #data4: `BC #n` (R222). -/
  | ashrRwImm4 (n : RegNum) (d : BitVec 4)
  /-- JMPI cc, [Rwn]: `9C cn` (R280). -/
  | jmpi (cc : Cond) (n : RegNum)
  /-- NOP`CC 00` (R327). -/
  | nop
  /-- PUSH reg: `EC RR` (R302). -/
  | push (r : ShortReg)
  /-- POP reg: `FC RR` (R301). -/
  | pop (r : ShortReg)
  /-- JMPR cc, rel: `cD rr` (R281). -/
  | jmpr (cc : Cond) (rel : Rel)
  /-- BCLR bitaddrQ.q: `qE QQ` (R192). -/
  | bclr (qq : BitOff) (q : BitPos)
  /-- BSET bitaddrQ.q: `qF QQ` (R199). -/
  | bset (qq : BitOff) (q : BitPos)
  /-- CMPI1 Rwn, #data4: `80 #n` (R215). -/
  | cmpi1RwImm4 (n : RegNum) (d : BitVec 4)
  /-- CMPI1 Rwn, mem: `82 Fn MM MM` (R215). -/
  | cmpi1RwMem (n : RegNum) (a : Word)
  /-- CMPI1 Rwn, #data16: `86 Fn ## ##` (R215). -/
  | cmpi1RwImm16 (n : RegNum) (d : Word)
  /-- CMPI2 Rwn, #data4: `90 #n` (R216). -/
  | cmpi2RwImm4 (n : RegNum) (d : BitVec 4)
  /-- CMPI2 Rwn, mem: `92 Fn MM MM` (R216). -/
  | cmpi2RwMem (n : RegNum) (a : Word)
  /-- CMPI2 Rwn, #data16: `96 Fn ## ##` (R216). -/
  | cmpi2RwImm16 (n : RegNum) (d : Word)
  /-- CMPD1 Rwn, #data4: `A0 #n` (R213). -/
  | cmpd1RwImm4 (n : RegNum) (d : BitVec 4)
  /-- CMPD1 Rwn, mem: `A2 Fn MM MM` (R213). -/
  | cmpd1RwMem (n : RegNum) (a : Word)
  /-- CMPD1 Rwn, #data16: `A6 Fn ## ##` (R213). -/
  | cmpd1RwImm16 (n : RegNum) (d : Word)
  /-- CMPD2 Rwn, #data4: `B0 #n` (R214). -/
  | cmpd2RwImm4 (n : RegNum) (d : BitVec 4)
  /-- CMPD2 Rwn, mem: `B2 Fn MM MM` (R214). -/
  | cmpd2RwMem (n : RegNum) (a : Word)
  /-- CMPD2 Rwn, #data16: `B6 Fn ## ##` (R214). -/
  | cmpd2RwImm16 (n : RegNum) (d : Word)
  /-- NEG Rwn: `81 n0` (R153). -/
  | neg (n : RegNum)
  /-- CPL Rwn: `91 n0` (R151). -/
  | cpl (n : RegNum)
  /-- NEGB Rbn: `A1 n0` (R154). -/
  | negb (n : RegNum)
  /-- CPLB Rbn: `B1 n0` (R152). -/
  | cplb (n : RegNum)
  /-- CoXXX Rwn, [Rwm(x)]: `83 .. .. ..` (R346). -/
  | coxxx83
  /-- CoXXX [IDXi(x)], [Rwn(x)]: `93 .. .. ..` (R346). -/
  | coxxx93
  /-- CoXXX Rwn, Rwm: `A3 .. .. ..` (R346). -/
  | coxxxA3
  /-- CoSTORE [Rwn(x)], CoReg: `B3 .. .. ..` (R346). -/
  | costoreB3
  /-- CoSTORE Rwn, CoReg: `C3 .. .. ..` (R346). -/
  | costoreC3
  /-- CoMOV [IDXi(x)], [Rwn(x)]: `D3 .. .. ..` (R346). -/
  | comovD3
  /-- MOV [Rwn], mem: `84 0n MM MM` (R231). -/
  | movIndMem (n : RegNum) (a : Word)
  /-- MOV mem, [Rwn]: `94 0n MM MM` (R231). -/
  | movMemInd (a : Word) (n : RegNum)
  /-- MOVB [Rwn], mem: `A4 0n MM MM` (R232). -/
  | movbIndMem (n : RegNum) (a : Word)
  /-- MOVB mem, [Rwn]: `B4 0n MM MM` (R232). -/
  | movbMemInd (a : Word) (n : RegNum)
  /-- IDLE`87 78 87 87` (R322). -/
  | idle
  /-- protection_fault`87 .. .. .. (any other bytes 1-3)` (R320). -/
  | protFault87 (b1 : Byte) (b2 : Byte) (b3 : Byte)
  /-- PWRDN`97 68 97 97` (R323). -/
  | pwrdn
  /-- protection_fault`97 .. .. .. (any other bytes 1-3)` (R320). -/
  | protFault97 (b1 : Byte) (b2 : Byte) (b3 : Byte)
  /-- SRVWDT`A7 58 A7 A7` (R324). -/
  | srvwdt
  /-- protection_fault`A7 .. .. .. (any other bytes 1-3)` (R320). -/
  | protFaultA7 (b1 : Byte) (b2 : Byte) (b3 : Byte)
  /-- DISWDT`A5 5A A5 A5` (R325). -/
  | diswdt
  /-- protection_fault`A5 .. .. .. (any other bytes 1-3)` (R320). -/
  | protFaultA5 (b1 : Byte) (b2 : Byte) (b3 : Byte)
  /-- EINIT`B5 4A B5 B5` (R326). -/
  | einit
  /-- protection_fault`B5 .. .. .. (any other bytes 1-3)` (R320). -/
  | protFaultB5 (b1 : Byte) (b2 : Byte) (b3 : Byte)
  /-- SRST`B7 48 B7 B7` (R321). -/
  | srst
  /-- protection_fault`B7 .. .. .. (any other bytes 1-3)` (R320). -/
  | protFaultB7 (b1 : Byte) (b2 : Byte) (b3 : Byte)
  /-- MOV Rwn, [Rwm]: `A8 nm` (R231). -/
  | movRwInd (n : RegNum) (m : RegNum)
  /-- MOVB Rbn, [Rwm]: `A9 nm` (R232). -/
  | movbRbInd (n : RegNum) (m : RegNum)
  /-- MOV Rwn, [Rwm+]: `98 nm` (R231). -/
  | movRwInc (n : RegNum) (m : RegNum)
  /-- MOVB Rbn, [Rwm+]: `99 nm` (R232). -/
  | movbRbInc (n : RegNum) (m : RegNum)
  /-- MOV [Rwm], Rwn: `B8 nm` (R231). -/
  | movIndRw (m : RegNum) (n : RegNum)
  /-- MOVB [Rwm], Rbn: `B9 nm` (R232). -/
  | movbIndRb (m : RegNum) (n : RegNum)
  /-- MOV [-Rwm], Rwn: `88 nm` (R231). -/
  | movDecRw (m : RegNum) (n : RegNum)
  /-- MOVB [-Rwm], Rbn: `89 nm` (R232). -/
  | movbDecRb (m : RegNum) (n : RegNum)
  /-- MOV [Rwn], [Rwm]: `C8 nm` (R231). -/
  | movIndInd (n : RegNum) (m : RegNum)
  /-- MOVB [Rwn], [Rwm]: `C9 nm` (R232). -/
  | movbIndInd (n : RegNum) (m : RegNum)
  /-- MOV [Rwn+], [Rwm]: `D8 nm` (R231). -/
  | movIncInd (n : RegNum) (m : RegNum)
  /-- MOVB [Rwn+], [Rwm]: `D9 nm` (R232). -/
  | movbIncInd (n : RegNum) (m : RegNum)
  /-- MOV [Rwn], [Rwm+]: `E8 nm` (R231). -/
  | movIndInc (n : RegNum) (m : RegNum)
  /-- MOVB [Rwn], [Rwm+]: `E9 nm` (R232). -/
  | movbIndInc (n : RegNum) (m : RegNum)
  /-- MOVBZ Rwn, Rbm: `C0 mn` (R234). -/
  | movbzRwRb (n : RegNum) (m : RegNum)
  /-- MOVBZ reg, mem: `C2 RR MM MM` (R234). -/
  | movbzRegMem (r : ShortReg) (a : Word)
  /-- MOVBZ mem, reg: `C5 RR MM MM` (R234). -/
  | movbzMemReg (a : Word) (r : ShortReg)
  /-- MOVBS Rwn, Rbm: `D0 mn` (R233). -/
  | movbsRwRb (n : RegNum) (m : RegNum)
  /-- MOVBS reg, mem: `D2 RR MM MM` (R233). -/
  | movbsRegMem (r : ShortReg) (a : Word)
  /-- MOVBS mem, reg: `D5 RR MM MM` (R233). -/
  | movbsMemReg (a : Word) (r : ShortReg)
  /-- MOV [Rwm+#data16], Rwn: `C4 nm ## ##` (R231). -/
  | movDispRw (m : RegNum) (d : Word) (n : RegNum)
  /-- MOV Rwn, [Rwm+#data16]: `D4 nm ## ##` (R231). -/
  | movRwDisp (n : RegNum) (m : RegNum) (d : Word)
  /-- MOVB [Rwm+#data16], Rbn: `E4 nm ## ##` (R232). -/
  | movbDispRb (m : RegNum) (d : Word) (n : RegNum)
  /-- MOVB Rbn, [Rwm+#data16]: `F4 nm ## ##` (R232). -/
  | movbRbDisp (n : RegNum) (m : RegNum) (d : Word)
  /-- SCXT reg, #data16: `C6 RR ## ##` (R303). -/
  | scxtRegImm (r : ShortReg) (d : Word)
  /-- SCXT reg, mem: `D6 RR MM MM` (R303). -/
  | scxtRegMem (r : ShortReg) (a : Word)
  /-- ATOMIC #data2: `D1 :00##-0` (R331). -/
  | atomic (k : SeqLen)
  /-- EXTR #data2: `D1 :10##-0` (R332). -/
  | extr (k : SeqLen)
  /-- EXTS Rwm, #data2: `DC :00##-m` (R335). -/
  | extsRw (m : RegNum) (k : SeqLen)
  /-- EXTP Rwm, #data2: `DC :01##-m` (R333). -/
  | extpRw (m : RegNum) (k : SeqLen)
  /-- EXTSR Rwm, #data2: `DC :10##-m` (R336). -/
  | extsrRw (m : RegNum) (k : SeqLen)
  /-- EXTPR Rwm, #data2: `DC :11##-m` (R334). -/
  | extprRw (m : RegNum) (k : SeqLen)
  /-- EXTS #seg, #data2: `D7 :00##-0 ss 00` (R335). -/
  | extsSeg (seg : SegNum) (k : SeqLen)
  /-- EXTSR #seg, #data2: `D7 :10##-0 ss 00` (R336). -/
  | extsrSeg (seg : SegNum) (k : SeqLen)
  /-- EXTP #pag, #data2: `D7 :01##-0 pp 0:00pp` (R333). -/
  | extpPag (pag : PageNum) (k : SeqLen)
  /-- EXTPR #pag, #data2: `D7 :11##-0 pp 0:00pp` (R334). -/
  | extprPag (pag : PageNum) (k : SeqLen)
  /-- MOV Rwn, #data4: `E0 #n` (R231). -/
  | movRwImm4 (n : RegNum) (d : BitVec 4)
  /-- MOVB Rbn, #data4: `E1 #n` (R232). -/
  | movbRbImm4 (n : RegNum) (d : BitVec 4)
  /-- PCALL reg, caddr: `E2 RR MM MM` (R285). -/
  | pcall (r : ShortReg) (a : Word)
  /-- MOV reg, #data16: `E6 RR ## ##` (R231). -/
  | movRegImm (r : ShortReg) (d : Word)
  /-- MOVB reg, #data16: `E7 RR ## ##` (R232). -/
  | movbRegImm (r : ShortReg) (d : Word)
  /-- MOV Rwn, Rwm: `F0 nm` (R231). -/
  | movRwRw (n : RegNum) (m : RegNum)
  /-- MOVB Rbn, Rbm: `F1 nm` (R232). -/
  | movbRbRb (n : RegNum) (m : RegNum)
  /-- MOV reg, mem: `F2 RR MM MM` (R231). -/
  | movRegMem (r : ShortReg) (a : Word)
  /-- MOVB reg, mem: `F3 RR MM MM` (R232). -/
  | movbRegMem (r : ShortReg) (a : Word)
  /-- MOV mem, reg: `F6 RR MM MM` (R231). -/
  | movMemReg (a : Word) (r : ShortReg)
  /-- MOVB mem, reg: `F7 RR MM MM` (R232). -/
  | movbMemReg (a : Word) (r : ShortReg)
  /-- UNDEFINED`3B ..` (R347). -/
  | undef3B
  /-- UNDEFINED`44 ..` (R347). -/
  | undef44
  /-- UNDEFINED`45 ..` (R347). -/
  | undef45
  /-- UNDEFINED`85 ..` (R347). -/
  | undef85
  /-- UNDEFINED`8B ..` (R347). -/
  | undef8B
  /-- UNDEFINED`8C ..` (R347). -/
  | undef8C
  /-- UNDEFINED`95 ..` (R347). -/
  | undef95
  /-- UNDEFINED`C1 ..` (R347). -/
  | undefC1
  /-- UNDEFINED`C7 ..` (R347). -/
  | undefC7
  /-- UNDEFINED`E3 ..` (R347). -/
  | undefE3
  /-- UNDEFINED`E5 ..` (R347). -/
  | undefE5
  /-- UNDEFINED`F5 ..` (R347). -/
  | undefF5
  /-- UNDEFINED`F8 ..` (R347). -/
  | undefF8
  /-- UNDEFINED`F9 ..` (R347). -/
  | undefF9
  deriving DecidableEq, Repr

end Sys2Proof
end

