-- ==== Sys2Proof/WellFormed.lean ====
section
/-!
DEFINITION. What an encoding admits beyond the operand types: a protection-fault row of the opcode table applies only
when bytes 1 to 3 differ from the exact pattern of its opcode (48_system_control.md R320, 30_encoding.md R118).
-/

namespace Sys2Proof

/-- Whether a term of `Instr` stands for some encoding of the opcode table. -/
def Instr.wf : Instr → Bool
  | .protFault87 b1 b2 b3 => !(b1 == 0x78#8 && b2 == 0x87#8 && b3 == 0x87#8)
  | .protFault97 b1 b2 b3 => !(b1 == 0x68#8 && b2 == 0x97#8 && b3 == 0x97#8)
  | .protFaultA7 b1 b2 b3 => !(b1 == 0x58#8 && b2 == 0xa7#8 && b3 == 0xa7#8)
  | .protFaultA5 b1 b2 b3 => !(b1 == 0x5a#8 && b2 == 0xa5#8 && b3 == 0xa5#8)
  | .protFaultB5 b1 b2 b3 => !(b1 == 0x4a#8 && b2 == 0xb5#8 && b3 == 0xb5#8)
  | .protFaultB7 b1 b2 b3 => !(b1 == 0x48#8 && b2 == 0xb7#8 && b3 == 0xb7#8)
  | _ => true

end Sys2Proof
end

