-- ==== Sys2Proof/Decode.lean ====
section
/-!
DEFINITION. Encoding and decoding: the fields of an instruction's bytes (30_encoding.md R101, R103 to R106), the length
rule (R100, R110), decoding (R117) with the reserved encodings of R114 refused by name, and the encoder.
-/

namespace Sys2Proof

/-- High nibble of a byte (30_encoding.md R103: the nibble written first in a format). -/
def nibHi (b : Byte) : BitVec 4 := b.extractLsb' 4 4
/-- Low nibble of a byte. -/
def nibLo (b : Byte) : BitVec 4 := b.extractLsb' 0 4
/-- Bits 2:0 of a byte (`#data3`). -/
def lo3 (b : Byte) : BitVec 3 := b.extractLsb' 0 3
/-- Bits 1:0 of a byte (`ii`). -/
def lo2 (b : Byte) : BitVec 2 := b.extractLsb' 0 2
/-- Bits 7:1 of a byte (`#trap7`). -/
def hi7 (b : Byte) : BitVec 7 := b.extractLsb' 1 7
/-- Bits 7:2 of a byte. -/
def hi6 (b : Byte) : BitVec 6 := b.extractLsb' 2 6
/-- Bit 0 of a byte. -/
def bit0 (b : Byte) : Bool := b.getLsbD 0
/-- The sub-operation b1[7:6] of D1h, D7h and DCh (30_encoding.md R108). -/
def subOp (b : Byte) : BitVec 2 := b.extractLsb' 6 2
/-- The sequence length field b1[5:4] of D1h, D7h and DCh (48_system_control.md R330). -/
def seqBits (b : Byte) : BitVec 2 := b.extractLsb' 4 2
/-- Low byte of a word. -/
def loByte (w : Word) : Byte := w.extractLsb' 0 8
/-- High byte of a word. -/
def hiByte (w : Word) : Byte := w.extractLsb' 8 8
/-- The word of a high and a low byte (30_encoding.md R106: low byte first in memory). -/
def joinBytes (hi lo : Byte) : Word := hi ++ lo
/-- Low eight bits of a page number (byte 2 of the #pag forms). -/
def pageLo (p : PageNum) : Byte := p.extractLsb' 0 8
/-- High two bits of a page number, as byte 3 of the #pag forms (30_encoding.md R106). -/
def pageHi (p : PageNum) : Byte := 0#6 ++ p.extractLsb' 8 2
/-- pag = b3[1:0], b2 (30_encoding.md R106). -/
def joinPage (hi lo : Byte) : PageNum := hi.extractLsb' 0 2 ++ lo
/-- A byte from its two nibbles. -/
def packNib (h l : BitVec 4) : Byte := h ++ l
/-- Byte 1 of `op n:0###`. -/
def packImm3 (n : BitVec 4) (d : BitVec 3) : Byte := n ++ (0#1 ++ d)
/-- Byte 1 of `op n:10ii`. -/
def packInd (n : BitVec 4) (i : BitVec 2) : Byte := n ++ (0b10#2 ++ i)
/-- Byte 1 of `op n:11ii`. -/
def packInc (n : BitVec 4) (i : BitVec 2) : Byte := n ++ (0b11#2 ++ i)
/-- Byte 1 of ATOMIC and the EXT* instructions. -/
def packExt (sub k : BitVec 2) (m : BitVec 4) : Byte := (sub ++ k) ++ m
/-- Byte 1 of TRAP: `t:ttt0`. -/
def packTrap (t : BitVec 7) : Byte := t ++ 0#1

/-- The condition of a 4-bit code (10_state.md R32: all 16 codes are defined). -/
def condOf (c : BitVec 4) : Cond :=
  match c.toNat with
  | 0 => .uc
  | 1 => .net
  | 2 => .z
  | 3 => .nz
  | 4 => .v
  | 5 => .nv
  | 6 => .n
  | 7 => .nn
  | 8 => .c
  | 9 => .nc
  | 10 => .sgt
  | 11 => .sle
  | 12 => .slt
  | 13 => .sge
  | 14 => .ugt
  | _ => .ule

/-- The 4-bit code of a condition. -/
def condCode : Cond → BitVec 4
  | .uc => 0#4
  | .net => 1#4
  | .z => 2#4
  | .nz => 3#4
  | .v => 4#4
  | .nv => 5#4
  | .n => 6#4
  | .nn => 7#4
  | .c => 8#4
  | .nc => 9#4
  | .sgt => 10#4
  | .sle => 11#4
  | .slt => 12#4
  | .sge => 13#4
  | .ugt => 14#4
  | .ule => 15#4

/-- Length in bytes by the opcode byte alone (30_encoding.md R100, R110): low nibbles 2h to 7h and Ah are 4-byte forms,
except the 2-byte undefined opcodes and the 2-byte forms that share those columns. -/
def instrLength (b0 : Byte) : Nat :=
  match (nibLo b0).toNat with
  | 0 => 2
  | 1 => 2
  | 2 => 4
  | 3 => if nibHi b0 == 0xe#4 then 2 else 4
  | 4 => if nibHi b0 == 0x4#4 then 2 else 4
  | 5 => if nibHi b0 == 0x4#4 || nibHi b0 == 0x8#4 || nibHi b0 == 0x9#4 || nibHi b0 == 0xe#4 || nibHi b0 == 0xf#4 then 2 else 4
  | 6 => 4
  | 7 => if nibHi b0 == 0xc#4 then 2 else 4
  | 8 => 2
  | 9 => 2
  | 10 => 4
  | 11 => 2
  | 12 => 2
  | 13 => 2
  | 14 => 2
  | _ => 2

/-- What decoding answers: an instruction, or a reserved encoding refused by name (30_encoding.md R114). -/
inductive Decoded where
  | instr (i : Instr)
  | reserved (opcode : Byte)
  deriving DecidableEq, Repr

/-- The instruction if the fixed bits of its format are as printed, else the reserved encoding (30_encoding.md R114). -/
def fixedBits (ok : Bool) (b0 : Byte) (i : Instr) : Decoded := if ok then .instr i else .reserved b0

/-- Column x0h of the opcode map (30_encoding.md R110). -/
def decodeCol0 (b0 b1 : Byte) : Decoded :=
  match (nibHi b0).toNat with
  | 0 => .instr (.addRwRw (nibHi b1) (nibLo b1))
  | 1 => .instr (.addcRwRw (nibHi b1) (nibLo b1))
  | 2 => .instr (.subRwRw (nibHi b1) (nibLo b1))
  | 3 => .instr (.subcRwRw (nibHi b1) (nibLo b1))
  | 4 => .instr (.cmpRwRw (nibHi b1) (nibLo b1))
  | 5 => .instr (.xorRwRw (nibHi b1) (nibLo b1))
  | 6 => .instr (.andRwRw (nibHi b1) (nibLo b1))
  | 7 => .instr (.orRwRw (nibHi b1) (nibLo b1))
  | 8 => .instr (.cmpi1RwImm4 (nibLo b1) (nibHi b1))
  | 9 => .instr (.cmpi2RwImm4 (nibLo b1) (nibHi b1))
  | 10 => .instr (.cmpd1RwImm4 (nibLo b1) (nibHi b1))
  | 11 => .instr (.cmpd2RwImm4 (nibLo b1) (nibHi b1))
  | 12 => .instr (.movbzRwRb (nibLo b1) (nibHi b1))
  | 13 => .instr (.movbsRwRb (nibLo b1) (nibHi b1))
  | 14 => .instr (.movRwImm4 (nibLo b1) (nibHi b1))
  | _ => .instr (.movRwRw (nibHi b1) (nibLo b1))

/-- Column x1h of the opcode map (30_encoding.md R110). -/
def decodeCol1 (b0 b1 : Byte) : Decoded :=
  match (nibHi b0).toNat with
  | 0 => .instr (.addbRbRb (nibHi b1) (nibLo b1))
  | 1 => .instr (.addcbRbRb (nibHi b1) (nibLo b1))
  | 2 => .instr (.subbRbRb (nibHi b1) (nibLo b1))
  | 3 => .instr (.subcbRbRb (nibHi b1) (nibLo b1))
  | 4 => .instr (.cmpbRbRb (nibHi b1) (nibLo b1))
  | 5 => .instr (.xorbRbRb (nibHi b1) (nibLo b1))
  | 6 => .instr (.andbRbRb (nibHi b1) (nibLo b1))
  | 7 => .instr (.orbRbRb (nibHi b1) (nibLo b1))
  | 8 => fixedBits (nibLo b1 == 0#4) b0 (.neg (nibHi b1))
  | 9 => fixedBits (nibLo b1 == 0#4) b0 (.cpl (nibHi b1))
  | 10 => fixedBits (nibLo b1 == 0#4) b0 (.negb (nibHi b1))
  | 11 => fixedBits (nibLo b1 == 0#4) b0 (.cplb (nibHi b1))
  | 12 => .instr (.undefC1)
  | 13 => if subOp b1 == 0b00#2 then fixedBits (nibLo b1 == 0#4) b0 (.atomic (seqBits b1)) else
      fixedBits (subOp b1 == 0b10#2 && nibLo b1 == 0#4) b0 (.extr (seqBits b1))
  | 14 => .instr (.movbRbImm4 (nibLo b1) (nibHi b1))
  | _ => .instr (.movbRbRb (nibHi b1) (nibLo b1))

/-- Column x2h of the opcode map (30_encoding.md R110). -/
def decodeCol2 (b0 b1 b2 b3 : Byte) : Decoded :=
  match (nibHi b0).toNat with
  | 0 => .instr (.addRegMem b1 (joinBytes b3 b2))
  | 1 => .instr (.addcRegMem b1 (joinBytes b3 b2))
  | 2 => .instr (.subRegMem b1 (joinBytes b3 b2))
  | 3 => .instr (.subcRegMem b1 (joinBytes b3 b2))
  | 4 => .instr (.cmpRegMem b1 (joinBytes b3 b2))
  | 5 => .instr (.xorRegMem b1 (joinBytes b3 b2))
  | 6 => .instr (.andRegMem b1 (joinBytes b3 b2))
  | 7 => .instr (.orRegMem b1 (joinBytes b3 b2))
  | 8 => fixedBits (nibHi b1 == 0xf#4) b0 (.cmpi1RwMem (nibLo b1) (joinBytes b3 b2))
  | 9 => fixedBits (nibHi b1 == 0xf#4) b0 (.cmpi2RwMem (nibLo b1) (joinBytes b3 b2))
  | 10 => fixedBits (nibHi b1 == 0xf#4) b0 (.cmpd1RwMem (nibLo b1) (joinBytes b3 b2))
  | 11 => fixedBits (nibHi b1 == 0xf#4) b0 (.cmpd2RwMem (nibLo b1) (joinBytes b3 b2))
  | 12 => .instr (.movbzRegMem b1 (joinBytes b3 b2))
  | 13 => .instr (.movbsRegMem b1 (joinBytes b3 b2))
  | 14 => .instr (.pcall b1 (joinBytes b3 b2))
  | _ => .instr (.movRegMem b1 (joinBytes b3 b2))

/-- Column x3h of the opcode map (30_encoding.md R110). -/
def decodeCol3 (b0 b1 b2 b3 : Byte) : Decoded :=
  match (nibHi b0).toNat with
  | 0 => .instr (.addbRegMem b1 (joinBytes b3 b2))
  | 1 => .instr (.addcbRegMem b1 (joinBytes b3 b2))
  | 2 => .instr (.subbRegMem b1 (joinBytes b3 b2))
  | 3 => .instr (.subcbRegMem b1 (joinBytes b3 b2))
  | 4 => .instr (.cmpbRegMem b1 (joinBytes b3 b2))
  | 5 => .instr (.xorbRegMem b1 (joinBytes b3 b2))
  | 6 => .instr (.andbRegMem b1 (joinBytes b3 b2))
  | 7 => .instr (.orbRegMem b1 (joinBytes b3 b2))
  | 8 => .instr (.coxxx83)
  | 9 => .instr (.coxxx93)
  | 10 => .instr (.coxxxA3)
  | 11 => .instr (.costoreB3)
  | 12 => .instr (.costoreC3)
  | 13 => .instr (.comovD3)
  | 14 => .instr (.undefE3)
  | _ => .instr (.movbRegMem b1 (joinBytes b3 b2))

/-- Column x4h of the opcode map (30_encoding.md R110). -/
def decodeCol4 (b0 b1 b2 b3 : Byte) : Decoded :=
  match (nibHi b0).toNat with
  | 0 => .instr (.addMemReg (joinBytes b3 b2) b1)
  | 1 => .instr (.addcMemReg (joinBytes b3 b2) b1)
  | 2 => .instr (.subMemReg (joinBytes b3 b2) b1)
  | 3 => .instr (.subcMemReg (joinBytes b3 b2) b1)
  | 4 => .instr (.undef44)
  | 5 => .instr (.xorMemReg (joinBytes b3 b2) b1)
  | 6 => .instr (.andMemReg (joinBytes b3 b2) b1)
  | 7 => .instr (.orMemReg (joinBytes b3 b2) b1)
  | 8 => fixedBits (nibHi b1 == 0#4) b0 (.movIndMem (nibLo b1) (joinBytes b3 b2))
  | 9 => fixedBits (nibHi b1 == 0#4) b0 (.movMemInd (joinBytes b3 b2) (nibLo b1))
  | 10 => fixedBits (nibHi b1 == 0#4) b0 (.movbIndMem (nibLo b1) (joinBytes b3 b2))
  | 11 => fixedBits (nibHi b1 == 0#4) b0 (.movbMemInd (joinBytes b3 b2) (nibLo b1))
  | 12 => .instr (.movDispRw (nibLo b1) (joinBytes b3 b2) (nibHi b1))
  | 13 => .instr (.movRwDisp (nibHi b1) (nibLo b1) (joinBytes b3 b2))
  | 14 => .instr (.movbDispRb (nibLo b1) (joinBytes b3 b2) (nibHi b1))
  | _ => .instr (.movbRbDisp (nibHi b1) (nibLo b1) (joinBytes b3 b2))

/-- Column x5h of the opcode map (30_encoding.md R110). -/
def decodeCol5 (b0 b1 b2 b3 : Byte) : Decoded :=
  match (nibHi b0).toNat with
  | 0 => .instr (.addbMemReg (joinBytes b3 b2) b1)
  | 1 => .instr (.addcbMemReg (joinBytes b3 b2) b1)
  | 2 => .instr (.subbMemReg (joinBytes b3 b2) b1)
  | 3 => .instr (.subcbMemReg (joinBytes b3 b2) b1)
  | 4 => .instr (.undef45)
  | 5 => .instr (.xorbMemReg (joinBytes b3 b2) b1)
  | 6 => .instr (.andbMemReg (joinBytes b3 b2) b1)
  | 7 => .instr (.orbMemReg (joinBytes b3 b2) b1)
  | 8 => .instr (.undef85)
  | 9 => .instr (.undef95)
  | 10 => if (b1 == 0x5a#8) && (b2 == 0xa5#8) && (b3 == 0xa5#8) then .instr .diswdt else .instr (.protFaultA5 b1 b2 b3)
  | 11 => if (b1 == 0x4a#8) && (b2 == 0xb5#8) && (b3 == 0xb5#8) then .instr .einit else .instr (.protFaultB5 b1 b2 b3)
  | 12 => .instr (.movbzMemReg (joinBytes b3 b2) b1)
  | 13 => .instr (.movbsMemReg (joinBytes b3 b2) b1)
  | 14 => .instr (.undefE5)
  | _ => .instr (.undefF5)

/-- Column x6h of the opcode map (30_encoding.md R110). -/
def decodeCol6 (b0 b1 b2 b3 : Byte) : Decoded :=
  match (nibHi b0).toNat with
  | 0 => .instr (.addRegImm b1 (joinBytes b3 b2))
  | 1 => .instr (.addcRegImm b1 (joinBytes b3 b2))
  | 2 => .instr (.subRegImm b1 (joinBytes b3 b2))
  | 3 => .instr (.subcRegImm b1 (joinBytes b3 b2))
  | 4 => .instr (.cmpRegImm b1 (joinBytes b3 b2))
  | 5 => .instr (.xorRegImm b1 (joinBytes b3 b2))
  | 6 => .instr (.andRegImm b1 (joinBytes b3 b2))
  | 7 => .instr (.orRegImm b1 (joinBytes b3 b2))
  | 8 => fixedBits (nibHi b1 == 0xf#4) b0 (.cmpi1RwImm16 (nibLo b1) (joinBytes b3 b2))
  | 9 => fixedBits (nibHi b1 == 0xf#4) b0 (.cmpi2RwImm16 (nibLo b1) (joinBytes b3 b2))
  | 10 => fixedBits (nibHi b1 == 0xf#4) b0 (.cmpd1RwImm16 (nibLo b1) (joinBytes b3 b2))
  | 11 => fixedBits (nibHi b1 == 0xf#4) b0 (.cmpd2RwImm16 (nibLo b1) (joinBytes b3 b2))
  | 12 => .instr (.scxtRegImm b1 (joinBytes b3 b2))
  | 13 => .instr (.scxtRegMem b1 (joinBytes b3 b2))
  | 14 => .instr (.movRegImm b1 (joinBytes b3 b2))
  | _ => .instr (.movMemReg (joinBytes b3 b2) b1)

/-- Column x7h of the opcode map (30_encoding.md R110). -/
def decodeCol7 (b0 b1 b2 b3 : Byte) : Decoded :=
  match (nibHi b0).toNat with
  | 0 => .instr (.addbRegImm b1 (joinBytes b3 b2))
  | 1 => .instr (.addcbRegImm b1 (joinBytes b3 b2))
  | 2 => .instr (.subbRegImm b1 (joinBytes b3 b2))
  | 3 => .instr (.subcbRegImm b1 (joinBytes b3 b2))
  | 4 => .instr (.cmpbRegImm b1 (joinBytes b3 b2))
  | 5 => .instr (.xorbRegImm b1 (joinBytes b3 b2))
  | 6 => .instr (.andbRegImm b1 (joinBytes b3 b2))
  | 7 => .instr (.orbRegImm b1 (joinBytes b3 b2))
  | 8 => if (b1 == 0x78#8) && (b2 == 0x87#8) && (b3 == 0x87#8) then .instr .idle else .instr (.protFault87 b1 b2 b3)
  | 9 => if (b1 == 0x68#8) && (b2 == 0x97#8) && (b3 == 0x97#8) then .instr .pwrdn else .instr (.protFault97 b1 b2 b3)
  | 10 => if (b1 == 0x58#8) && (b2 == 0xa7#8) && (b3 == 0xa7#8) then .instr .srvwdt else .instr (.protFaultA7 b1 b2 b3)
  | 11 => if (b1 == 0x48#8) && (b2 == 0xb7#8) && (b3 == 0xb7#8) then .instr .srst else .instr (.protFaultB7 b1 b2 b3)
  | 12 => .instr (.undefC7)
  | 13 => if subOp b1 == 0b00#2 then fixedBits ((nibLo b1 == 0#4) && (b3 == 0x00#8)) b0 (.extsSeg b2 (seqBits b1)) else
      if subOp b1 == 0b01#2 then fixedBits ((nibLo b1 == 0#4) && (hi6 b3 == 0#6)) b0 (.extpPag (joinPage b3 b2) (seqBits b1)) else
      if subOp b1 == 0b10#2 then fixedBits ((nibLo b1 == 0#4) && (b3 == 0x00#8)) b0 (.extsrSeg b2 (seqBits b1)) else fixedBits ((nibLo b1 == 0#4) && (hi6 b3 == 0#6)) b0 (.extprPag (joinPage b3 b2) (seqBits b1))
  | 14 => .instr (.movbRegImm b1 (joinBytes b3 b2))
  | _ => .instr (.movbMemReg (joinBytes b3 b2) b1)

/-- Column x8h of the opcode map (30_encoding.md R110). -/
def decodeCol8 (b0 b1 : Byte) : Decoded :=
  match (nibHi b0).toNat with
  | 0 => if b1.getLsbD 3 then (if b1.getLsbD 2 then .instr (.addRwInc (nibHi b1) (lo2 b1)) else .instr (.addRwInd (nibHi b1) (lo2 b1))) else .instr (.addRwImm3 (nibHi b1) (lo3 b1))
  | 1 => if b1.getLsbD 3 then (if b1.getLsbD 2 then .instr (.addcRwInc (nibHi b1) (lo2 b1)) else .instr (.addcRwInd (nibHi b1) (lo2 b1))) else .instr (.addcRwImm3 (nibHi b1) (lo3 b1))
  | 2 => if b1.getLsbD 3 then (if b1.getLsbD 2 then .instr (.subRwInc (nibHi b1) (lo2 b1)) else .instr (.subRwInd (nibHi b1) (lo2 b1))) else .instr (.subRwImm3 (nibHi b1) (lo3 b1))
  | 3 => if b1.getLsbD 3 then (if b1.getLsbD 2 then .instr (.subcRwInc (nibHi b1) (lo2 b1)) else .instr (.subcRwInd (nibHi b1) (lo2 b1))) else .instr (.subcRwImm3 (nibHi b1) (lo3 b1))
  | 4 => if b1.getLsbD 3 then (if b1.getLsbD 2 then .instr (.cmpRwInc (nibHi b1) (lo2 b1)) else .instr (.cmpRwInd (nibHi b1) (lo2 b1))) else .instr (.cmpRwImm3 (nibHi b1) (lo3 b1))
  | 5 => if b1.getLsbD 3 then (if b1.getLsbD 2 then .instr (.xorRwInc (nibHi b1) (lo2 b1)) else .instr (.xorRwInd (nibHi b1) (lo2 b1))) else .instr (.xorRwImm3 (nibHi b1) (lo3 b1))
  | 6 => if b1.getLsbD 3 then (if b1.getLsbD 2 then .instr (.andRwInc (nibHi b1) (lo2 b1)) else .instr (.andRwInd (nibHi b1) (lo2 b1))) else .instr (.andRwImm3 (nibHi b1) (lo3 b1))
  | 7 => if b1.getLsbD 3 then (if b1.getLsbD 2 then .instr (.orRwInc (nibHi b1) (lo2 b1)) else .instr (.orRwInd (nibHi b1) (lo2 b1))) else .instr (.orRwImm3 (nibHi b1) (lo3 b1))
  | 8 => .instr (.movDecRw (nibLo b1) (nibHi b1))
  | 9 => .instr (.movRwInc (nibHi b1) (nibLo b1))
  | 10 => .instr (.movRwInd (nibHi b1) (nibLo b1))
  | 11 => .instr (.movIndRw (nibLo b1) (nibHi b1))
  | 12 => .instr (.movIndInd (nibHi b1) (nibLo b1))
  | 13 => .instr (.movIncInd (nibHi b1) (nibLo b1))
  | 14 => .instr (.movIndInc (nibHi b1) (nibLo b1))
  | _ => .instr (.undefF8)

/-- Column x9h of the opcode map (30_encoding.md R110). -/
def decodeCol9 (b0 b1 : Byte) : Decoded :=
  match (nibHi b0).toNat with
  | 0 => if b1.getLsbD 3 then (if b1.getLsbD 2 then .instr (.addbRbInc (nibHi b1) (lo2 b1)) else .instr (.addbRbInd (nibHi b1) (lo2 b1))) else .instr (.addbRbImm3 (nibHi b1) (lo3 b1))
  | 1 => if b1.getLsbD 3 then (if b1.getLsbD 2 then .instr (.addcbRbInc (nibHi b1) (lo2 b1)) else .instr (.addcbRbInd (nibHi b1) (lo2 b1))) else .instr (.addcbRbImm3 (nibHi b1) (lo3 b1))
  | 2 => if b1.getLsbD 3 then (if b1.getLsbD 2 then .instr (.subbRbInc (nibHi b1) (lo2 b1)) else .instr (.subbRbInd (nibHi b1) (lo2 b1))) else .instr (.subbRbImm3 (nibHi b1) (lo3 b1))
  | 3 => if b1.getLsbD 3 then (if b1.getLsbD 2 then .instr (.subcbRbInc (nibHi b1) (lo2 b1)) else .instr (.subcbRbInd (nibHi b1) (lo2 b1))) else .instr (.subcbRbImm3 (nibHi b1) (lo3 b1))
  | 4 => if b1.getLsbD 3 then (if b1.getLsbD 2 then .instr (.cmpbRbInc (nibHi b1) (lo2 b1)) else .instr (.cmpbRbInd (nibHi b1) (lo2 b1))) else .instr (.cmpbRbImm3 (nibHi b1) (lo3 b1))
  | 5 => if b1.getLsbD 3 then (if b1.getLsbD 2 then .instr (.xorbRbInc (nibHi b1) (lo2 b1)) else .instr (.xorbRbInd (nibHi b1) (lo2 b1))) else .instr (.xorbRbImm3 (nibHi b1) (lo3 b1))
  | 6 => if b1.getLsbD 3 then (if b1.getLsbD 2 then .instr (.andbRbInc (nibHi b1) (lo2 b1)) else .instr (.andbRbInd (nibHi b1) (lo2 b1))) else .instr (.andbRbImm3 (nibHi b1) (lo3 b1))
  | 7 => if b1.getLsbD 3 then (if b1.getLsbD 2 then .instr (.orbRbInc (nibHi b1) (lo2 b1)) else .instr (.orbRbInd (nibHi b1) (lo2 b1))) else .instr (.orbRbImm3 (nibHi b1) (lo3 b1))
  | 8 => .instr (.movbDecRb (nibLo b1) (nibHi b1))
  | 9 => .instr (.movbRbInc (nibHi b1) (nibLo b1))
  | 10 => .instr (.movbRbInd (nibHi b1) (nibLo b1))
  | 11 => .instr (.movbIndRb (nibLo b1) (nibHi b1))
  | 12 => .instr (.movbIndInd (nibHi b1) (nibLo b1))
  | 13 => .instr (.movbIncInd (nibHi b1) (nibLo b1))
  | 14 => .instr (.movbIndInc (nibHi b1) (nibLo b1))
  | _ => .instr (.undefF9)

/-- Column xAh of the opcode map (30_encoding.md R110). -/
def decodeColA (b0 b1 b2 b3 : Byte) : Decoded :=
  match (nibHi b0).toNat with
  | 0 => .instr (.bfldl b1 b2 b3)
  | 1 => .instr (.bfldh b1 b3 b2)
  | 2 => .instr (.bcmp b2 (nibLo b3) b1 (nibHi b3))
  | 3 => .instr (.bmovn b2 (nibLo b3) b1 (nibHi b3))
  | 4 => .instr (.bmov b2 (nibLo b3) b1 (nibHi b3))
  | 5 => .instr (.bor b2 (nibLo b3) b1 (nibHi b3))
  | 6 => .instr (.band b2 (nibLo b3) b1 (nibHi b3))
  | 7 => .instr (.bxor b2 (nibLo b3) b1 (nibHi b3))
  | 8 => fixedBits (nibLo b3 == 0#4) b0 (.jb b1 (nibHi b3) b2)
  | 9 => fixedBits (nibLo b3 == 0#4) b0 (.jnb b1 (nibHi b3) b2)
  | 10 => fixedBits (nibLo b3 == 0#4) b0 (.jbc b1 (nibHi b3) b2)
  | 11 => fixedBits (nibLo b3 == 0#4) b0 (.jnbs b1 (nibHi b3) b2)
  | 12 => fixedBits (nibLo b1 == 0#4) b0 (.calla (condOf (nibHi b1)) (joinBytes b3 b2))
  | 13 => .instr (.calls b1 (joinBytes b3 b2))
  | 14 => fixedBits (nibLo b1 == 0#4) b0 (.jmpa (condOf (nibHi b1)) (joinBytes b3 b2))
  | _ => .instr (.jmps b1 (joinBytes b3 b2))

/-- Column xBh of the opcode map (30_encoding.md R110). -/
def decodeColB (b0 b1 : Byte) : Decoded :=
  match (nibHi b0).toNat with
  | 0 => .instr (.mul (nibHi b1) (nibLo b1))
  | 1 => .instr (.mulu (nibHi b1) (nibLo b1))
  | 2 => .instr (.prior (nibHi b1) (nibLo b1))
  | 3 => .instr (.undef3B)
  | 4 => fixedBits (nibHi b1 == nibLo b1) b0 (.div (nibHi b1))
  | 5 => fixedBits (nibHi b1 == nibLo b1) b0 (.divu (nibHi b1))
  | 6 => fixedBits (nibHi b1 == nibLo b1) b0 (.divl (nibHi b1))
  | 7 => fixedBits (nibHi b1 == nibLo b1) b0 (.divlu (nibHi b1))
  | 8 => .instr (.undef8B)
  | 9 => fixedBits (bit0 b1 == false) b0 (.trap (hi7 b1))
  | 10 => .instr (.calli (condOf (nibHi b1)) (nibLo b1))
  | 11 => .instr (.callr b1)
  | 12 => fixedBits (b1 == 0x00#8) b0 (.ret)
  | 13 => fixedBits (b1 == 0x00#8) b0 (.rets)
  | 14 => .instr (.retp b1)
  | _ => fixedBits (b1 == 0x88#8) b0 (.reti)

/-- Column xCh of the opcode map (30_encoding.md R110). -/
def decodeColC (b0 b1 : Byte) : Decoded :=
  match (nibHi b0).toNat with
  | 0 => .instr (.rolRwRw (nibHi b1) (nibLo b1))
  | 1 => .instr (.rolRwImm4 (nibLo b1) (nibHi b1))
  | 2 => .instr (.rorRwRw (nibHi b1) (nibLo b1))
  | 3 => .instr (.rorRwImm4 (nibLo b1) (nibHi b1))
  | 4 => .instr (.shlRwRw (nibHi b1) (nibLo b1))
  | 5 => .instr (.shlRwImm4 (nibLo b1) (nibHi b1))
  | 6 => .instr (.shrRwRw (nibHi b1) (nibLo b1))
  | 7 => .instr (.shrRwImm4 (nibLo b1) (nibHi b1))
  | 8 => .instr (.undef8C)
  | 9 => .instr (.jmpi (condOf (nibHi b1)) (nibLo b1))
  | 10 => .instr (.ashrRwRw (nibHi b1) (nibLo b1))
  | 11 => .instr (.ashrRwImm4 (nibLo b1) (nibHi b1))
  | 12 => fixedBits (b1 == 0x00#8) b0 (.nop)
  | 13 => if subOp b1 == 0b00#2 then .instr (.extsRw (nibLo b1) (seqBits b1)) else
      if subOp b1 == 0b01#2 then .instr (.extpRw (nibLo b1) (seqBits b1)) else
      if subOp b1 == 0b10#2 then .instr (.extsrRw (nibLo b1) (seqBits b1)) else .instr (.extprRw (nibLo b1) (seqBits b1))
  | 14 => .instr (.push b1)
  | _ => .instr (.pop b1)

/-- Decoding of an instruction's bytes (30_encoding.md R117). A 2-byte instruction ignores `b2` and `b3`. -/
def decode (b0 b1 b2 b3 : Byte) : Decoded :=
  match (nibLo b0).toNat with
  | 0 => decodeCol0 b0 b1
  | 1 => decodeCol1 b0 b1
  | 2 => decodeCol2 b0 b1 b2 b3
  | 3 => decodeCol3 b0 b1 b2 b3
  | 4 => decodeCol4 b0 b1 b2 b3
  | 5 => decodeCol5 b0 b1 b2 b3
  | 6 => decodeCol6 b0 b1 b2 b3
  | 7 => decodeCol7 b0 b1 b2 b3
  | 8 => decodeCol8 b0 b1
  | 9 => decodeCol9 b0 b1
  | 10 => decodeColA b0 b1 b2 b3
  | 11 => decodeColB b0 b1
  | 12 => decodeColC b0 b1
  | 13 => .instr (.jmpr (condOf (nibHi b0)) b1)
  | 14 => .instr (.bclr b1 (nibHi b0))
  | _ => .instr (.bset b1 (nibHi b0))

/-- Decoding from a list of bytes in address order: the instruction and the bytes after it. -/
def decodeBytes : List Byte → Option (Decoded × List Byte)
  | b0 :: b1 :: rest =>
    if instrLength b0 = 2 then some (decode b0 b1 0#8 0#8, rest)
    else match rest with
      | b2 :: b3 :: rest' => some (decode b0 b1 b2 b3, rest')
      | _ => none
  | _ => none

/-- The bytes of an instruction in address order (30_encoding.md R103, R110; 20_memory.md R80). Bits the format leaves
open (bytes 1 to 3 of undefined and MAC opcodes) are written as zero. -/
def encode : Instr → List Byte
  | .addRwRw n m => [0x00#8, packNib n m]
  | .addRegMem r a => [0x02#8, r, loByte a, hiByte a]
  | .addMemReg a r => [0x04#8, r, loByte a, hiByte a]
  | .addRegImm r d => [0x06#8, r, loByte d, hiByte d]
  | .addRwImm3 n d => [0x08#8, packImm3 n d]
  | .addRwInd n i => [0x08#8, packInd n i]
  | .addRwInc n i => [0x08#8, packInc n i]
  | .addbRbRb n m => [0x01#8, packNib n m]
  | .addbRegMem r a => [0x03#8, r, loByte a, hiByte a]
  | .addbMemReg a r => [0x05#8, r, loByte a, hiByte a]
  | .addbRegImm r d => [0x07#8, r, loByte d, hiByte d]
  | .addbRbImm3 n d => [0x09#8, packImm3 n d]
  | .addbRbInd n i => [0x09#8, packInd n i]
  | .addbRbInc n i => [0x09#8, packInc n i]
  | .addcRwRw n m => [0x10#8, packNib n m]
  | .addcRegMem r a => [0x12#8, r, loByte a, hiByte a]
  | .addcMemReg a r => [0x14#8, r, loByte a, hiByte a]
  | .addcRegImm r d => [0x16#8, r, loByte d, hiByte d]
  | .addcRwImm3 n d => [0x18#8, packImm3 n d]
  | .addcRwInd n i => [0x18#8, packInd n i]
  | .addcRwInc n i => [0x18#8, packInc n i]
  | .addcbRbRb n m => [0x11#8, packNib n m]
  | .addcbRegMem r a => [0x13#8, r, loByte a, hiByte a]
  | .addcbMemReg a r => [0x15#8, r, loByte a, hiByte a]
  | .addcbRegImm r d => [0x17#8, r, loByte d, hiByte d]
  | .addcbRbImm3 n d => [0x19#8, packImm3 n d]
  | .addcbRbInd n i => [0x19#8, packInd n i]
  | .addcbRbInc n i => [0x19#8, packInc n i]
  | .subRwRw n m => [0x20#8, packNib n m]
  | .subRegMem r a => [0x22#8, r, loByte a, hiByte a]
  | .subMemReg a r => [0x24#8, r, loByte a, hiByte a]
  | .subRegImm r d => [0x26#8, r, loByte d, hiByte d]
  | .subRwImm3 n d => [0x28#8, packImm3 n d]
  | .subRwInd n i => [0x28#8, packInd n i]
  | .subRwInc n i => [0x28#8, packInc n i]
  | .subbRbRb n m => [0x21#8, packNib n m]
  | .subbRegMem r a => [0x23#8, r, loByte a, hiByte a]
  | .subbMemReg a r => [0x25#8, r, loByte a, hiByte a]
  | .subbRegImm r d => [0x27#8, r, loByte d, hiByte d]
  | .subbRbImm3 n d => [0x29#8, packImm3 n d]
  | .subbRbInd n i => [0x29#8, packInd n i]
  | .subbRbInc n i => [0x29#8, packInc n i]
  | .subcRwRw n m => [0x30#8, packNib n m]
  | .subcRegMem r a => [0x32#8, r, loByte a, hiByte a]
  | .subcMemReg a r => [0x34#8, r, loByte a, hiByte a]
  | .subcRegImm r d => [0x36#8, r, loByte d, hiByte d]
  | .subcRwImm3 n d => [0x38#8, packImm3 n d]
  | .subcRwInd n i => [0x38#8, packInd n i]
  | .subcRwInc n i => [0x38#8, packInc n i]
  | .subcbRbRb n m => [0x31#8, packNib n m]
  | .subcbRegMem r a => [0x33#8, r, loByte a, hiByte a]
  | .subcbMemReg a r => [0x35#8, r, loByte a, hiByte a]
  | .subcbRegImm r d => [0x37#8, r, loByte d, hiByte d]
  | .subcbRbImm3 n d => [0x39#8, packImm3 n d]
  | .subcbRbInd n i => [0x39#8, packInd n i]
  | .subcbRbInc n i => [0x39#8, packInc n i]
  | .cmpRwRw n m => [0x40#8, packNib n m]
  | .cmpRegMem r a => [0x42#8, r, loByte a, hiByte a]
  | .cmpRegImm r d => [0x46#8, r, loByte d, hiByte d]
  | .cmpRwImm3 n d => [0x48#8, packImm3 n d]
  | .cmpRwInd n i => [0x48#8, packInd n i]
  | .cmpRwInc n i => [0x48#8, packInc n i]
  | .cmpbRbRb n m => [0x41#8, packNib n m]
  | .cmpbRegMem r a => [0x43#8, r, loByte a, hiByte a]
  | .cmpbRegImm r d => [0x47#8, r, loByte d, hiByte d]
  | .cmpbRbImm3 n d => [0x49#8, packImm3 n d]
  | .cmpbRbInd n i => [0x49#8, packInd n i]
  | .cmpbRbInc n i => [0x49#8, packInc n i]
  | .xorRwRw n m => [0x50#8, packNib n m]
  | .xorRegMem r a => [0x52#8, r, loByte a, hiByte a]
  | .xorMemReg a r => [0x54#8, r, loByte a, hiByte a]
  | .xorRegImm r d => [0x56#8, r, loByte d, hiByte d]
  | .xorRwImm3 n d => [0x58#8, packImm3 n d]
  | .xorRwInd n i => [0x58#8, packInd n i]
  | .xorRwInc n i => [0x58#8, packInc n i]
  | .xorbRbRb n m => [0x51#8, packNib n m]
  | .xorbRegMem r a => [0x53#8, r, loByte a, hiByte a]
  | .xorbMemReg a r => [0x55#8, r, loByte a, hiByte a]
  | .xorbRegImm r d => [0x57#8, r, loByte d, hiByte d]
  | .xorbRbImm3 n d => [0x59#8, packImm3 n d]
  | .xorbRbInd n i => [0x59#8, packInd n i]
  | .xorbRbInc n i => [0x59#8, packInc n i]
  | .andRwRw n m => [0x60#8, packNib n m]
  | .andRegMem r a => [0x62#8, r, loByte a, hiByte a]
  | .andMemReg a r => [0x64#8, r, loByte a, hiByte a]
  | .andRegImm r d => [0x66#8, r, loByte d, hiByte d]
  | .andRwImm3 n d => [0x68#8, packImm3 n d]
  | .andRwInd n i => [0x68#8, packInd n i]
  | .andRwInc n i => [0x68#8, packInc n i]
  | .andbRbRb n m => [0x61#8, packNib n m]
  | .andbRegMem r a => [0x63#8, r, loByte a, hiByte a]
  | .andbMemReg a r => [0x65#8, r, loByte a, hiByte a]
  | .andbRegImm r d => [0x67#8, r, loByte d, hiByte d]
  | .andbRbImm3 n d => [0x69#8, packImm3 n d]
  | .andbRbInd n i => [0x69#8, packInd n i]
  | .andbRbInc n i => [0x69#8, packInc n i]
  | .orRwRw n m => [0x70#8, packNib n m]
  | .orRegMem r a => [0x72#8, r, loByte a, hiByte a]
  | .orMemReg a r => [0x74#8, r, loByte a, hiByte a]
  | .orRegImm r d => [0x76#8, r, loByte d, hiByte d]
  | .orRwImm3 n d => [0x78#8, packImm3 n d]
  | .orRwInd n i => [0x78#8, packInd n i]
  | .orRwInc n i => [0x78#8, packInc n i]
  | .orbRbRb n m => [0x71#8, packNib n m]
  | .orbRegMem r a => [0x73#8, r, loByte a, hiByte a]
  | .orbMemReg a r => [0x75#8, r, loByte a, hiByte a]
  | .orbRegImm r d => [0x77#8, r, loByte d, hiByte d]
  | .orbRbImm3 n d => [0x79#8, packImm3 n d]
  | .orbRbInd n i => [0x79#8, packInd n i]
  | .orbRbInc n i => [0x79#8, packInc n i]
  | .bfldl q mask d => [0x0a#8, q, mask, d]
  | .bfldh q mask d => [0x1a#8, q, d, mask]
  | .bcmp zz z qq q => [0x2a#8, qq, zz, packNib q z]
  | .bmovn zz z qq q => [0x3a#8, qq, zz, packNib q z]
  | .bmov zz z qq q => [0x4a#8, qq, zz, packNib q z]
  | .bor zz z qq q => [0x5a#8, qq, zz, packNib q z]
  | .band zz z qq q => [0x6a#8, qq, zz, packNib q z]
  | .bxor zz z qq q => [0x7a#8, qq, zz, packNib q z]
  | .jb qq q rel => [0x8a#8, qq, rel, packNib q 0#4]
  | .jnb qq q rel => [0x9a#8, qq, rel, packNib q 0#4]
  | .jbc qq q rel => [0xaa#8, qq, rel, packNib q 0#4]
  | .jnbs qq q rel => [0xba#8, qq, rel, packNib q 0#4]
  | .calla cc a => [0xca#8, packNib (condCode cc) 0#4, loByte a, hiByte a]
  | .calls seg a => [0xda#8, seg, loByte a, hiByte a]
  | .jmpa cc a => [0xea#8, packNib (condCode cc) 0#4, loByte a, hiByte a]
  | .jmps seg a => [0xfa#8, seg, loByte a, hiByte a]
  | .mul n m => [0x0b#8, packNib n m]
  | .mulu n m => [0x1b#8, packNib n m]
  | .prior n m => [0x2b#8, packNib n m]
  | .div n => [0x4b#8, packNib n n]
  | .divu n => [0x5b#8, packNib n n]
  | .divl n => [0x6b#8, packNib n n]
  | .divlu n => [0x7b#8, packNib n n]
  | .trap t => [0x9b#8, packTrap t]
  | .calli cc n => [0xab#8, packNib (condCode cc) n]
  | .callr rel => [0xbb#8, rel]
  | .ret => [0xcb#8, 0x00#8]
  | .rets => [0xdb#8, 0x00#8]
  | .retp r => [0xeb#8, r]
  | .reti => [0xfb#8, 0x88#8]
  | .rolRwRw n m => [0x0c#8, packNib n m]
  | .rolRwImm4 n d => [0x1c#8, packNib d n]
  | .rorRwRw n m => [0x2c#8, packNib n m]
  | .rorRwImm4 n d => [0x3c#8, packNib d n]
  | .shlRwRw n m => [0x4c#8, packNib n m]
  | .shlRwImm4 n d => [0x5c#8, packNib d n]
  | .shrRwRw n m => [0x6c#8, packNib n m]
  | .shrRwImm4 n d => [0x7c#8, packNib d n]
  | .ashrRwRw n m => [0xac#8, packNib n m]
  | .ashrRwImm4 n d => [0xbc#8, packNib d n]
  | .jmpi cc n => [0x9c#8, packNib (condCode cc) n]
  | .nop => [0xcc#8, 0x00#8]
  | .push r => [0xec#8, r]
  | .pop r => [0xfc#8, r]
  | .jmpr cc rel => [packNib (condCode cc) 0xd#4, rel]
  | .bclr qq q => [packNib q 0xe#4, qq]
  | .bset qq q => [packNib q 0xf#4, qq]
  | .cmpi1RwImm4 n d => [0x80#8, packNib d n]
  | .cmpi1RwMem n a => [0x82#8, packNib 0xf#4 n, loByte a, hiByte a]
  | .cmpi1RwImm16 n d => [0x86#8, packNib 0xf#4 n, loByte d, hiByte d]
  | .cmpi2RwImm4 n d => [0x90#8, packNib d n]
  | .cmpi2RwMem n a => [0x92#8, packNib 0xf#4 n, loByte a, hiByte a]
  | .cmpi2RwImm16 n d => [0x96#8, packNib 0xf#4 n, loByte d, hiByte d]
  | .cmpd1RwImm4 n d => [0xa0#8, packNib d n]
  | .cmpd1RwMem n a => [0xa2#8, packNib 0xf#4 n, loByte a, hiByte a]
  | .cmpd1RwImm16 n d => [0xa6#8, packNib 0xf#4 n, loByte d, hiByte d]
  | .cmpd2RwImm4 n d => [0xb0#8, packNib d n]
  | .cmpd2RwMem n a => [0xb2#8, packNib 0xf#4 n, loByte a, hiByte a]
  | .cmpd2RwImm16 n d => [0xb6#8, packNib 0xf#4 n, loByte d, hiByte d]
  | .neg n => [0x81#8, packNib n 0#4]
  | .cpl n => [0x91#8, packNib n 0#4]
  | .negb n => [0xa1#8, packNib n 0#4]
  | .cplb n => [0xb1#8, packNib n 0#4]
  | .coxxx83 => [0x83#8, 0x00#8, 0x00#8, 0x00#8]
  | .coxxx93 => [0x93#8, 0x00#8, 0x00#8, 0x00#8]
  | .coxxxA3 => [0xa3#8, 0x00#8, 0x00#8, 0x00#8]
  | .costoreB3 => [0xb3#8, 0x00#8, 0x00#8, 0x00#8]
  | .costoreC3 => [0xc3#8, 0x00#8, 0x00#8, 0x00#8]
  | .comovD3 => [0xd3#8, 0x00#8, 0x00#8, 0x00#8]
  | .movIndMem n a => [0x84#8, packNib 0#4 n, loByte a, hiByte a]
  | .movMemInd a n => [0x94#8, packNib 0#4 n, loByte a, hiByte a]
  | .movbIndMem n a => [0xa4#8, packNib 0#4 n, loByte a, hiByte a]
  | .movbMemInd a n => [0xb4#8, packNib 0#4 n, loByte a, hiByte a]
  | .idle => [0x87#8, 0x78#8, 0x87#8, 0x87#8]
  | .protFault87 b1 b2 b3 => [0x87#8, b1, b2, b3]
  | .pwrdn => [0x97#8, 0x68#8, 0x97#8, 0x97#8]
  | .protFault97 b1 b2 b3 => [0x97#8, b1, b2, b3]
  | .srvwdt => [0xa7#8, 0x58#8, 0xa7#8, 0xa7#8]
  | .protFaultA7 b1 b2 b3 => [0xa7#8, b1, b2, b3]
  | .diswdt => [0xa5#8, 0x5a#8, 0xa5#8, 0xa5#8]
  | .protFaultA5 b1 b2 b3 => [0xa5#8, b1, b2, b3]
  | .einit => [0xb5#8, 0x4a#8, 0xb5#8, 0xb5#8]
  | .protFaultB5 b1 b2 b3 => [0xb5#8, b1, b2, b3]
  | .srst => [0xb7#8, 0x48#8, 0xb7#8, 0xb7#8]
  | .protFaultB7 b1 b2 b3 => [0xb7#8, b1, b2, b3]
  | .movRwInd n m => [0xa8#8, packNib n m]
  | .movbRbInd n m => [0xa9#8, packNib n m]
  | .movRwInc n m => [0x98#8, packNib n m]
  | .movbRbInc n m => [0x99#8, packNib n m]
  | .movIndRw m n => [0xb8#8, packNib n m]
  | .movbIndRb m n => [0xb9#8, packNib n m]
  | .movDecRw m n => [0x88#8, packNib n m]
  | .movbDecRb m n => [0x89#8, packNib n m]
  | .movIndInd n m => [0xc8#8, packNib n m]
  | .movbIndInd n m => [0xc9#8, packNib n m]
  | .movIncInd n m => [0xd8#8, packNib n m]
  | .movbIncInd n m => [0xd9#8, packNib n m]
  | .movIndInc n m => [0xe8#8, packNib n m]
  | .movbIndInc n m => [0xe9#8, packNib n m]
  | .movbzRwRb n m => [0xc0#8, packNib m n]
  | .movbzRegMem r a => [0xc2#8, r, loByte a, hiByte a]
  | .movbzMemReg a r => [0xc5#8, r, loByte a, hiByte a]
  | .movbsRwRb n m => [0xd0#8, packNib m n]
  | .movbsRegMem r a => [0xd2#8, r, loByte a, hiByte a]
  | .movbsMemReg a r => [0xd5#8, r, loByte a, hiByte a]
  | .movDispRw m d n => [0xc4#8, packNib n m, loByte d, hiByte d]
  | .movRwDisp n m d => [0xd4#8, packNib n m, loByte d, hiByte d]
  | .movbDispRb m d n => [0xe4#8, packNib n m, loByte d, hiByte d]
  | .movbRbDisp n m d => [0xf4#8, packNib n m, loByte d, hiByte d]
  | .scxtRegImm r d => [0xc6#8, r, loByte d, hiByte d]
  | .scxtRegMem r a => [0xd6#8, r, loByte a, hiByte a]
  | .atomic k => [0xd1#8, packExt 0b00#2 k 0#4]
  | .extr k => [0xd1#8, packExt 0b10#2 k 0#4]
  | .extsRw m k => [0xdc#8, packExt 0b00#2 k m]
  | .extpRw m k => [0xdc#8, packExt 0b01#2 k m]
  | .extsrRw m k => [0xdc#8, packExt 0b10#2 k m]
  | .extprRw m k => [0xdc#8, packExt 0b11#2 k m]
  | .extsSeg seg k => [0xd7#8, packExt 0b00#2 k 0#4, seg, 0x00#8]
  | .extsrSeg seg k => [0xd7#8, packExt 0b10#2 k 0#4, seg, 0x00#8]
  | .extpPag pag k => [0xd7#8, packExt 0b01#2 k 0#4, pageLo pag, pageHi pag]
  | .extprPag pag k => [0xd7#8, packExt 0b11#2 k 0#4, pageLo pag, pageHi pag]
  | .movRwImm4 n d => [0xe0#8, packNib d n]
  | .movbRbImm4 n d => [0xe1#8, packNib d n]
  | .pcall r a => [0xe2#8, r, loByte a, hiByte a]
  | .movRegImm r d => [0xe6#8, r, loByte d, hiByte d]
  | .movbRegImm r d => [0xe7#8, r, loByte d, hiByte d]
  | .movRwRw n m => [0xf0#8, packNib n m]
  | .movbRbRb n m => [0xf1#8, packNib n m]
  | .movRegMem r a => [0xf2#8, r, loByte a, hiByte a]
  | .movbRegMem r a => [0xf3#8, r, loByte a, hiByte a]
  | .movMemReg a r => [0xf6#8, r, loByte a, hiByte a]
  | .movbMemReg a r => [0xf7#8, r, loByte a, hiByte a]
  | .undef3B => [0x3b#8, 0x00#8]
  | .undef44 => [0x44#8, 0x00#8]
  | .undef45 => [0x45#8, 0x00#8]
  | .undef85 => [0x85#8, 0x00#8]
  | .undef8B => [0x8b#8, 0x00#8]
  | .undef8C => [0x8c#8, 0x00#8]
  | .undef95 => [0x95#8, 0x00#8]
  | .undefC1 => [0xc1#8, 0x00#8]
  | .undefC7 => [0xc7#8, 0x00#8]
  | .undefE3 => [0xe3#8, 0x00#8]
  | .undefE5 => [0xe5#8, 0x00#8]
  | .undefF5 => [0xf5#8, 0x00#8]
  | .undefF8 => [0xf8#8, 0x00#8]
  | .undefF9 => [0xf9#8, 0x00#8]

/-- Byte `k` of an instruction of `nbits` bits whose bits are `w`, numbered as spec/opcode_table.json numbers them
(30_encoding.md R118): byte 0 is the topmost byte of the row's `nbits`, and bytes past the row's bits are zero. -/
def tableByte (nbits w k : Nat) : Byte :=
  if k < nbits / 8 then BitVec.ofNat 8 (w >>> (nbits - 8 * (k + 1))) else 0#8

/-- The instruction the decoder reads from a row of the opcode table. -/
def decodeTableWord (nbits w : Nat) : Option Instr :=
  match decode (tableByte nbits w 0) (tableByte nbits w 1) (tableByte nbits w 2) (tableByte nbits w 3) with
  | .instr i => some i
  | .reserved _ => none

end Sys2Proof
end

