-- ==== Sys2Proof/Config.lean ====
section
/-!
DEFINITION. The free values: what the spec calls unspecified or a draw. They are constants without a body, so no proof
can see what they are, and a statement about them holds for every value. Each is applied to an address or to the
counter `draws` of the state.
-/

namespace Sys2Proof

/-- What a byte of memory that nothing has written reads as, by its address (70_reset_and_hazards.md R391: "RAM keeps
what it held", "each byte a free value"). DESIGN CHOICE of form: notes/assumptions/4.md. -/
opaque Config.unwrittenByte : Nat → Byte

/-- What a read of a device register answers (20_memory.md R86: passed to the environment), by draw. -/
opaque Config.deviceData : Nat → Word

/-- MDL after a division with V = 1 (40_arithmetic.md R157 to R160: "unspecified (draw)"), by draw. -/
opaque Config.divQuotient : Nat → Word

/-- MDH after a division with V = 1, by draw. -/
opaque Config.divRemainder : Nat → Word

/-- The Z flag after a division with V = 1, by draw. -/
opaque Config.divZero : Nat → Bool

/-- The N flag after a division with V = 1, by draw. -/
opaque Config.divNegative : Nat → Bool

/-- Which of the admitted PSW values arbitration uses after an explicit PSW write (70_reset_and_hazards.md R403: both
outcomes admitted), by draw. -/
opaque Config.arbitrationChoice : Nat → Nat

end Sys2Proof
end

