-- ==== Sys2Proof/Machine/State.lean ====
section
/-!
DEFINITION. The state of the machine (10_state.md R20), the reasons a step can stop, and the state after reset (R50).
-/

namespace Sys2Proof.Machine

/-- Why the machine stops with a fault. -/
inductive Fault where
  /-- A memory access to an address the map says holds nothing (20_memory.md R84: refused by the model). Raised by every
  data access and by the fetch. Safe: the model claims nothing about such an access. -/
  | unmapped (addr : Nat)
  /-- An access above the decoded address bits (20_memory.md R60, PA_BITS). Raised by every access and the fetch.
  Safe. -/
  | beyondAddressBits (addr : Nat)
  /-- A run ends at END_ADDR (60_exceptions.md R378 (a)). Raised by the step at an open boundary. Safe. -/
  | runEnded
  /-- A run ends in power-down with no reset to come (60_exceptions.md R378 (b)). Raised by the step. Safe. -/
  | poweredDown
  deriving DecidableEq, Repr

/-- Why the model refuses to go on. -/
inductive Refusal where
  /-- An instruction without a meaning in this model, by its mnemonic. Safe. -/
  | notModelled (mnemonic : String)
  /-- A reserved encoding (30_encoding.md R114). Raised by the step after decoding. Safe. -/
  | reservedEncoding (opcode : Nat)
  /-- A 4-byte instruction at IP = FFFEh (10_state.md R28, decision D3). Raised by the fetch. Safe. -/
  | straddlingFetch
  /-- A register that is both pointer and operand (20_memory.md R71, 45_data_movement.md R230). Raised by the indirect
  forms. Safe. -/
  | sameRegister
  /-- A nested EXT* that leaves a mode in force unset (48_system_control.md R338). Raised by EXTR, EXTP, EXTS. Safe. -/
  | nestedExtend
  /-- IDLE inside a sequence (48_system_control.md R337). Raised by IDLE. Safe. -/
  | idleInSequence
  /-- A context pointer whose bank is odd or crosses FFFFh (10_state.md R34). Raised by the step and by every use of a GPR.
  Safe. -/
  | badContextPointer
  /-- An (E)SFR address that is no CPU register and not claimed by the map (10_state.md R41). Raised by every data
  access and the fetch. Safe. -/
  | unmodelledRegister (addr : Nat)
  /-- A write to ROM (20_memory.md R84). Raised by every store. Safe. -/
  | romWrite (addr : Nat)
  /-- A MAC opcode on a product that has the MAC (48_system_control.md R346). Raised by the MAC opcodes. Safe. -/
  | macPresent
  /-- A GPR used right after a write of CP (70_reset_and_hazards.md R400). Raised by every use of a GPR. Safe. -/
  | hazardCp
  /-- A data address formed through a DPP right after a write of it (R401). Raised by long and indirect addresses.
  Safe. -/
  | hazardDpp
  /-- An implicit use of SP right after an explicit write of it (R402). Raised by push and pop. Safe. -/
  | hazardSp
  /-- TRAP or RETI right after a write of SYSCON (R404). Raised by TRAP and RETI. Safe. -/
  | hazardSyscon
  /-- A store into the bytes the pipeline may have fetched (R405, 20_memory.md R91). Raised by every store of an
  instruction. Safe. -/
  | codeWindow (addr : Nat)
  /-- A write of SYSCON after EINIT (10_state.md R38, 70_reset_and_hazards.md R404). Raised by every store. Safe. -/
  | sysconLocked
  /-- A software write that sets a TFR bit that was 0 (60_exceptions.md R354). Raised by every store. Safe. -/
  | trapFlagSet
  /-- A push below STKOV with STACK_LIMITS off (60_exceptions.md R358). Raised by every push. Safe. -/
  | stackOverflow
  /-- A pop above STKUN with STACK_LIMITS off (60_exceptions.md R358). Raised by every pop. Safe. -/
  | stackUnderflow
  /-- A class B condition while a class A flag is set in TFR (60_exceptions.md R368). Raised by class B entry. Safe. -/
  | classBDuringClassA
  /-- Two enabled interrupt sources with one priority (60_exceptions.md R365). Raised by arbitration. Safe. -/
  | equalPriority
  /-- An interrupt source that names a PEC channel (60_exceptions.md R367). Raised by arbitration. Safe. -/
  | pecChannel
  /-- A trap or interrupt entry with an odd SP, which no run reaches (60_exceptions.md R369). Raised by entry. Safe. -/
  | oddStackInEntry
  deriving DecidableEq, Repr

/-- DPP override in force (10_state.md R42). -/
inductive Override where
  | none
  | page (p : BitVec 10)
  | seg (s : BitVec 8)
  deriving DecidableEq, Repr

/-- Run state (10_state.md R43). -/
inductive RunState where
  | running
  | idle
  | powerdown
  deriving DecidableEq, Repr

/-- Kinds of MEMMAP regions (20_memory.md R84). -/
inductive RegionKind where
  | ram
  | rom
  | device
  | none
  deriving DecidableEq, Repr

/-- One region of the memory map: the addresses from `first` to `last`. -/
structure Region where
  first : Nat
  last : Nat
  kind : RegionKind
  deriving DecidableEq, Repr

/-- SFR_ADDR: the physical address of each CPU register (10_state.md R33). -/
structure SfrAddresses where
  dpp0 : Addr
  dpp1 : Addr
  dpp2 : Addr
  dpp3 : Addr
  csp : Addr
  mdh : Addr
  mdl : Addr
  cp : Addr
  sp : Addr
  stkov : Addr
  stkun : Addr
  mdc : Addr
  psw : Addr
  syscon : Addr
  zeros : Addr
  ones : Addr
  tfr : Addr
  deriving DecidableEq, Repr

/-- PSW_LAYOUT: the bit of each PSW flag, and the lowest of the four bits of ILVL (10_state.md R30). -/
structure PswLayout where
  n : Fin 16
  c : Fin 16
  v : Fin 16
  z : Fin 16
  e : Fin 16
  mulip : Fin 16
  usr0 : Fin 16
  hlden : Fin 16
  ien : Fin 16
  ilvl : Fin 13
  deriving DecidableEq, Repr

/-- RESET_VALUES: the reset value of each register but DPP0 to DPP3, whose values the source gives (10_state.md R50). -/
structure ResetValues where
  ip : Word
  csp : BitVec 8
  psw : Word
  cp : Word
  sp : Word
  stkov : Word
  stkun : Word
  mdl : Word
  mdh : Word
  mdc : Word
  syscon : Word
  tfr : Word
  deriving DecidableEq, Repr

/-- SDIV: how a signed quotient is rounded (40_arithmetic.md R157, decision D29, which names only the first). DESIGN CHOICE:
notes/assumptions/37.md. -/
inductive Rounding where
  | towardZero
  | down
  deriving DecidableEq, Repr

/-- TRAP_TABLE: the trap number of each class A trap, the one number of class B, and the TFR bit of each trap
(60_exceptions.md R351, R354). The vector is four times the number (00_scope.md R6). -/
structure TrapTable where
  nmi : BitVec 7
  stkof : BitVec 7
  stkuf : BitVec 7
  classB : BitVec 7
  nmiBit : Fin 16
  stkofBit : Fin 16
  stkufBit : Fin 16
  undopcBit : Fin 16
  prtfltBit : Fin 16
  illopaBit : Fin 16
  illinaBit : Fin 16
  illbusBit : Fin 16
  deriving DecidableEq, Repr

/-- CP_FIXED_MASK: the bits of CP that read 1 and those that read 0 (10_state.md R34). -/
structure CpFixedMask where
  ones : Word
  zeros : Word
  deriving DecidableEq, Repr

/-- The parameters of 00_scope.md R7 that a harness sets and no step changes. -/
structure Params where
  /-- PA_BITS -/
  paBits : Nat
  /-- SFR_ADDR -/
  sfr : SfrAddresses
  /-- PSW_LAYOUT -/
  psw : PswLayout
  /-- HAS_MAC -/
  hasMac : Bool
  /-- MEMMAP: the first region that holds an address decides -/
  map : List Region
  /-- RESET_VALUES -/
  reset : ResetValues
  /-- SDIV -/
  sdiv : Rounding
  /-- STACK_LIMITS -/
  stackLimits : Bool
  /-- TRAP_TABLE -/
  traps : TrapTable
  /-- CP_FIXED_MASK -/
  cpFixed : CpFixedMask
  /-- PREFETCH_WINDOW, in bytes -/
  prefetchWindow : Nat
  /-- END_ADDR -/
  endAddr : Option Addr
  deriving DecidableEq, Repr

/-- One entry of IRQ_TABLE with its control register (60_exceptions.md R365). -/
structure IrqSource where
  /-- trap number 10h to 7Fh -/
  trapNo : BitVec 7
  /-- address of the control register xxIC -/
  icAddr : Addr
  /-- bits 7:0 of the control register: IR 7, IE 6, ILVL 5:2, GLVL 1:0 -/
  ic : Byte
  /-- whether the entry names a PEC channel -/
  pec : Bool
  deriving DecidableEq, Repr

/-- What the environment may deliver at an instruction boundary. -/
inductive EnvEvent where
  /-- the hardware reset pin (70_reset_and_hazards.md R390) -/
  | reset
  /-- a watchdog overflow, which resets while the watchdog is enabled (60_exceptions.md R373, notes/assumptions/38.md) -/
  | watchdogReset
  /-- a falling edge on the NMI pin (60_exceptions.md R361) -/
  | nmi
  /-- the peripheral of entry `k` of IRQ_TABLE requests an interrupt (60_exceptions.md R365) -/
  | irq (k : Nat)
  /-- another bus master or the PEC writes a byte of memory (20_memory.md R88) -/
  | busWrite (addr : Addr) (v : Byte)
  /-- the level of the NMI pin changes (48_system_control.md R323) -/
  | nmiPin (low : Bool)
  deriving DecidableEq, Repr

/-- What the core signals to the environment. -/
inductive OutEvent where
  /-- SRVWDT (48_system_control.md R324) -/
  | wdtService
  /-- the first EINIT (48_system_control.md R326) -/
  | rstoutHigh
  /-- a device read (20_memory.md R86) -/
  | deviceRead (addr : Addr) (w : Width)
  /-- a device write (20_memory.md R86) -/
  | deviceWrite (addr : Addr) (w : Width) (v : Word)
  deriving DecidableEq, Repr

/-- Which registers of R400 to R404 an instruction wrote explicitly. -/
structure Hazards where
  cp : Bool
  sp : Bool
  syscon : Bool
  dpp0 : Bool
  dpp1 : Bool
  dpp2 : Bool
  dpp3 : Bool
  deriving DecidableEq, Repr

/-- No explicit write. -/
def Hazards.clear : Hazards := ⟨false, false, false, false, false, false, false⟩

/-- The class A traps (60_exceptions.md R352), in order of priority (R353). -/
inductive ClassA where
  | nmi
  | stkof
  | stkuf
  deriving DecidableEq, Repr

/-- The class B traps the core raises (60_exceptions.md R351). ILLBUS is never raised (R360). -/
inductive ClassB where
  | undopc
  | prtflt
  | illopa
  | illina
  deriving DecidableEq, Repr

/-- What entered a service routine that has not yet returned. -/
inductive Frame where
  | classA (k : ClassA)
  | classB
  | interrupt
  | software
  deriving DecidableEq, Repr

/-- The machine's state (10_state.md R20; INVENTORY.md lists every field with its rule). -/
structure State where
  mem : List Host.Cell
  ip : Word
  csp : BitVec 8
  psw : Word
  cp : Word
  sp : Word
  stkov : Word
  stkun : Word
  dpp0 : BitVec 10
  dpp1 : BitVec 10
  dpp2 : BitVec 10
  dpp3 : BitVec 10
  mdl : Word
  mdh : Word
  mdc : Word
  syscon : Word
  tfr : Word
  extCount : Nat
  extEsfr : Bool
  extOvr : Override
  run : RunState
  initDone : Bool
  wdtEnabled : Bool
  wdtLocked : Bool
  pendNmi : Bool
  pendStkof : Bool
  pendStkuf : Bool
  irqs : List IrqSource
  par : Params
  nmiPinLow : Bool
  inputs : List (List EnvEvent)
  events : List OutEvent
  draws : Nat
  hazIn : Hazards
  hazOut : Hazards
  arbHist : List (Nat × Word)
  frames : List Frame
  retrapB : Bool
  deriving DecidableEq, Repr

/-- The addresses of the known devices (10_state.md R33). PRESUMED: notes/assumptions/2.md. -/
def SfrAddresses.default : SfrAddresses where
  dpp0 := 0x00FE00#24
  dpp1 := 0x00FE02#24
  dpp2 := 0x00FE04#24
  dpp3 := 0x00FE06#24
  csp := 0x00FE08#24
  mdh := 0x00FE0C#24
  mdl := 0x00FE0E#24
  cp := 0x00FE10#24
  sp := 0x00FE12#24
  stkov := 0x00FE14#24
  stkun := 0x00FE16#24
  mdc := 0x00FF0E#24
  psw := 0x00FF10#24
  syscon := 0x00FF12#24
  zeros := 0x00FF1C#24
  ones := 0x00FF1E#24
  tfr := 0x00FFAC#24

/-- The layout of the known devices (10_state.md R30). PRESUMED: notes/assumptions/2.md. -/
def PswLayout.default : PswLayout where
  n := 0
  c := 1
  v := 2
  z := 3
  e := 4
  mulip := 5
  usr0 := 6
  hlden := 10
  ien := 11
  ilvl := 12

/-- The reset values of the known devices (10_state.md R50). PRESUMED: notes/assumptions/2.md; SYSCON beside SGTDIS is a
DESIGN CHOICE: notes/assumptions/3.md. -/
def ResetValues.default : ResetValues where
  ip := 0x0000#16
  csp := 0x00#8
  psw := 0x0000#16
  cp := 0xFC00#16
  sp := 0xFC00#16
  stkov := 0xFA00#16
  stkun := 0xFC00#16
  mdl := 0x0000#16
  mdh := 0x0000#16
  mdc := 0x0000#16
  syscon := 0x0000#16
  tfr := 0x0000#16

/-- The trap table of the known devices (60_exceptions.md R351). PRESUMED: notes/assumptions/2.md. -/
def TrapTable.default : TrapTable where
  nmi := 0x02#7
  stkof := 0x04#7
  stkuf := 0x06#7
  classB := 0x0A#7
  nmiBit := 15
  stkofBit := 14
  stkufBit := 13
  undopcBit := 7
  prtfltBit := 3
  illopaBit := 2
  illinaBit := 1
  illbusBit := 0

/-- Bits 15:12 of CP read 1, bit 0 reads 0 (10_state.md R34). PRESUMED: notes/assumptions/2.md. -/
def CpFixedMask.default : CpFixedMask where
  ones := 0xF000#16
  zeros := 0x0001#16

/-- The parameters at their defaults (00_scope.md R7, 20_memory.md R84). Two have no default in the spec and are a DESIGN
CHOICE: the plain-memory region of MEMMAP (notes/assumptions/6.md: the (E)SFR areas hold nothing but CPU registers, every
other address is RAM), and END_ADDR, which is absent (notes/assumptions/33.md). -/
def Params.default : Params where
  paBits := 24
  sfr := SfrAddresses.default
  psw := PswLayout.default
  hasMac := false
  map := [⟨0x00F000, 0x00F1FF, .none⟩, ⟨0x00FE00, 0x00FFFF, .none⟩, ⟨0x000000, 0xFFFFFF, .ram⟩]
  reset := ResetValues.default
  sdiv := .towardZero
  stackLimits := false
  traps := TrapTable.default
  cpFixed := CpFixedMask.default
  prefetchWindow := 16
  endAddr := .none

/-- The machine right after reset, its parameters at their defaults (10_state.md R50, 70_reset_and_hazards.md R391): memory
with nothing listed. -/
def State.reset : State where
  mem := []
  ip := Params.default.reset.ip
  csp := Params.default.reset.csp
  psw := Params.default.reset.psw
  cp := Params.default.reset.cp
  sp := Params.default.reset.sp
  stkov := Params.default.reset.stkov
  stkun := Params.default.reset.stkun
  dpp0 := 0#10
  dpp1 := 1#10
  dpp2 := 2#10
  dpp3 := 3#10
  mdl := Params.default.reset.mdl
  mdh := Params.default.reset.mdh
  mdc := Params.default.reset.mdc
  syscon := Params.default.reset.syscon
  tfr := Params.default.reset.tfr
  extCount := 0
  extEsfr := false
  extOvr := .none
  run := .running
  initDone := false
  wdtEnabled := true
  wdtLocked := false
  pendNmi := false
  pendStkof := false
  pendStkuf := false
  irqs := []
  par := Params.default
  nmiPinLow := false
  inputs := []
  events := []
  draws := 0
  hazIn := Hazards.clear
  hazOut := Hazards.clear
  arbHist := []
  frames := []
  retrapB := false

/-- The result of an operation inside an instruction: a value and the state so far, or the class B trap it raises with
the state as the earlier steps left it (60_exceptions.md R355), or a stop. -/
inductive Res (α : Type) where
  | ok (v : α) (s : State)
  | trap (t : ClassB) (s : State)
  | fault (f : Fault)
  | refused (r : Refusal)

end Sys2Proof.Machine
end

