-- ==== Sys2Proof/Machine/Flags.lean ====
section
/-!
DEFINITION. The PSW layout (10_state.md R30), the condition codes (R32), and every flag computation: addition and
subtraction (40_arithmetic.md R141, R142), logic (41_logical.md R180), moves (45_data_movement.md R230), bit operands
(42_boolean_bit.md), shifts and PRIOR (44_prioritize_shift.md), multiply and divide (40_arithmetic.md R155 to R160).
-/

namespace Sys2Proof.Machine

/-- The word with one bit set. -/
def bitAt (k : Nat) : Word := 1#16 <<< k

/-- A word with one bit replaced. -/
def putBit (w : Word) (k : Nat) (b : Bool) : Word := (w &&& ~~~(bitAt k)) ||| (if b then bitAt k else 0#16)

/-- The five ALU flags (10_state.md R29). -/
structure Flags where
  e : Bool
  z : Bool
  v : Bool
  c : Bool
  n : Bool
  deriving DecidableEq, Repr

/-- The five flags of a PSW, at the bits PSW_LAYOUT gives them (10_state.md R30). -/
def flagsOf (l : PswLayout) (psw : Word) : Flags :=
  ⟨psw.getLsbD l.e, psw.getLsbD l.z, psw.getLsbD l.v, psw.getLsbD l.c, psw.getLsbD l.n⟩

/-- The PSW with the five flags replaced and every other bit kept (00_scope.md R10). -/
def putFlags (l : PswLayout) (psw : Word) (f : Flags) : Word :=
  putBit (putBit (putBit (putBit (putBit psw l.n f.n) l.c f.c) l.v f.v) l.z f.z) l.e f.e

/-- IEN (10_state.md R30). -/
def pswIen (l : PswLayout) (psw : Word) : Bool := psw.getLsbD l.ien

/-- ILVL, four bits (10_state.md R30). -/
def pswIlvl (l : PswLayout) (psw : Word) : BitVec 4 := psw.extractLsb' l.ilvl 4

/-- The bits of ILVL. -/
def ilvlMask (l : PswLayout) : Word := 0x000F#16 <<< l.ilvl.val

/-- The PSW with another ILVL. -/
def withIlvl (l : PswLayout) (psw : Word) (v : BitVec 4) : Word :=
  (psw &&& ~~~(ilvlMask l)) ||| (v.setWidth 16 <<< l.ilvl.val)

/-- The bits of the five flags. -/
def flagMask (l : PswLayout) : Word := bitAt l.n ||| bitAt l.c ||| bitAt l.v ||| bitAt l.z ||| bitAt l.e

/-- The bits of the PSW that a write changes: the others are reserved and read 0 (10_state.md R30). -/
def pswMask (l : PswLayout) : Word :=
  flagMask l ||| bitAt l.mulip ||| bitAt l.usr0 ||| bitAt l.hlden ||| bitAt l.ien ||| ilvlMask l

/-- Truth of a condition over the flags (10_state.md R32). -/
def condHolds (cc : Cond) (f : Flags) : Bool :=
  match cc with
  | .uc => true
  | .net => !(f.z || f.e)
  | .z => f.z
  | .nz => !f.z
  | .v => f.v
  | .nv => !f.v
  | .n => f.n
  | .nn => !f.n
  | .c => f.c
  | .nc => !f.c
  | .sgt => !(f.z || (f.n ^^ f.v))
  | .sle => f.z || (f.n ^^ f.v)
  | .slt => f.n ^^ f.v
  | .sge => !(f.n ^^ f.v)
  | .ugt => !(f.z || f.c)
  | .ule => f.z || f.c

/-- Whether a value is the lowest negative number of its width, 8000h or 80h (10_state.md R29, flag E). -/
def isLowest {k : Nat} (b : BitVec k) : Bool := b == BitVec.intMin k

/-- Whether an exact result lies outside the signed range of a width (flag V, 40_arithmetic.md R141, R142). -/
def outOfRange (k : Nat) (x : Int) : Bool := decide (x < -(2 ^ (k - 1) : Int)) || decide ((2 ^ (k - 1) : Int) ≤ x)

/-- A carry as a number. -/
def carryNat (c : Bool) : Nat := if c then 1 else 0

/-- r = a + b + cin modulo 2^W (40_arithmetic.md R141). -/
def addValue {k : Nat} (a b : BitVec k) (cin : Bool) : BitVec k := BitVec.ofNat k (a.toNat + b.toNat + carryNat cin)

/-- r = a - b - cin modulo 2^W (40_arithmetic.md R142). -/
def subValue {k : Nat} (a b : BitVec k) (cin : Bool) : BitVec k :=
  BitVec.ofInt k ((a.toNat : Int) - b.toNat - carryNat cin)

/-- Addition flags (40_arithmetic.md R141). `keepZ` is true where Z needs no earlier Z. -/
def addFlags {k : Nat} (a b : BitVec k) (cin keepZ : Bool) : Flags where
  e := isLowest b
  z := addValue a b cin == 0 && keepZ
  v := outOfRange k (a.toInt + b.toInt + carryNat cin)
  c := decide (2 ^ k ≤ a.toNat + b.toNat + carryNat cin)
  n := (addValue a b cin).msb

/-- Subtraction flags (40_arithmetic.md R142): C is the borrow. -/
def subFlags {k : Nat} (a b : BitVec k) (cin keepZ : Bool) : Flags where
  e := isLowest b
  z := subValue a b cin == 0 && keepZ
  v := outOfRange k (a.toInt - b.toInt - carryNat cin)
  c := decide (a.toNat < b.toNat + carryNat cin)
  n := (subValue a b cin).msb

/-- Logical flags (41_logical.md R180). -/
def logicFlags {k : Nat} (r b : BitVec k) : Flags where
  e := isLowest b
  z := r == 0
  v := false
  c := false
  n := r.msb

/-- The seven two-operand operations with the forms of 40_arithmetic.md R140. -/
inductive AluOp where
  | add | addc | sub | subc | and | or | xor
  deriving DecidableEq, Repr

/-- The result of a two-operand operation; `f` are the flags before, whose C is the carry in of ADDC and SUBC (40_arithmetic.md R143 to
R150, 41_logical.md R181 to R186). -/
def aluResult (op : AluOp) {k : Nat} (f : Flags) (a b : BitVec k) : BitVec k :=
  match op with
  | .add => addValue a b false
  | .addc => addValue a b f.c
  | .sub => subValue a b false
  | .subc => subValue a b f.c
  | .and => a &&& b
  | .or => a ||| b
  | .xor => a ^^^ b

/-- The flags of a two-operand operation (40_arithmetic.md R141, R142, R145, R149; 41_logical.md R180). -/
def aluFlags (op : AluOp) {k : Nat} (f : Flags) (a b : BitVec k) : Flags :=
  match op with
  | .add => addFlags a b false true
  | .addc => addFlags a b f.c f.z
  | .sub => subFlags a b false true
  | .subc => subFlags a b f.c f.z
  | .and => logicFlags (a &&& b) b
  | .or => logicFlags (a ||| b) b
  | .xor => logicFlags (a ^^^ b) b

/-- CPL (40_arithmetic.md R151, R152). -/
def cplFlags {k : Nat} (a : BitVec k) : Flags where
  e := isLowest a
  z := ~~~a == 0
  v := false
  c := false
  n := (~~~a).msb

/-- The flags of a value moved, V and C kept (45_data_movement.md R230; PUSH, POP, PCALL, RETP). -/
def moveFlags {k : Nat} (f : Flags) (x : BitVec k) : Flags where
  e := isLowest x
  z := x == 0
  v := f.v
  c := f.c
  n := x.msb

/-- The extension a MOVBS or MOVBZ makes. -/
inductive Extend where
  | sign
  | zero
  deriving DecidableEq, Repr

/-- The word a byte is extended to (45_data_movement.md R233, R234). -/
def extendByte (x : Extend) (v : Byte) : Word :=
  match x with
  | .sign => v.signExtend 16
  | .zero => v.setWidth 16

/-- The flags of MOVBS and MOVBZ (45_data_movement.md R233, R234). -/
def extendFlags (x : Extend) (f : Flags) (b : Byte) : Flags where
  e := false
  z := b == 0
  v := f.v
  c := f.c
  n := match x with
    | .sign => b.msb
    | .zero => false

/-- Flags of one bit operand: Z its complement, N the bit (42_boolean_bit.md R192, R196; JBC, JNBS). -/
def bitFlags (b : Bool) : Flags := ⟨false, !b, false, false, b⟩

/-- Flags of two bit operands: Z NOR, V OR, C AND, N XOR (42_boolean_bit.md R191). -/
def twoBitFlags (d s : Bool) : Flags := ⟨false, !(d || s), d || s, d && s, d ^^ s⟩

/-- Flags of a bit-field instruction: Z and N of the whole word written (42_boolean_bit.md R194, R195). -/
def fieldFlags (w : Word) : Flags := ⟨false, w == 0, false, false, w.msb⟩

/-- The five shifts and rotates. -/
inductive ShiftKind where
  | shl | shr | ashr | rol | ror
  deriving DecidableEq, Repr

/-- The shifted or rotated word (44_prioritize_shift.md R222 to R226). -/
def shiftResult (kind : ShiftKind) (a : Word) (c : Nat) : Word :=
  match kind with
  | .shl => a <<< c
  | .shr => a >>> c
  | .ashr => a.sshiftRight c
  | .rol => (a <<< c) ||| (a >>> (16 - c))
  | .ror => (a >>> c) ||| (a <<< (16 - c))

/-- C of a shift or rotate: the last bit shifted out, 0 for a count of 0 (44_prioritize_shift.md R222 to R226). -/
def shiftCarry (kind : ShiftKind) (a : Word) (c : Nat) : Bool :=
  decide (c ≠ 0) &&
    match kind with
    | .shl => a.getLsbD (16 - c)
    | .shr => a.getLsbD (c - 1)
    | .ashr => a.getLsbD (c - 1)
    | .rol => (shiftResult .rol a c).getLsbD 0
    | .ror => (shiftResult .ror a c).getLsbD 15

/-- Whether a bit shifted out before the last one was 1 (44_prioritize_shift.md R226, flag V). -/
def shiftSticky (a : Word) (c : Nat) : Bool := decide (1 < c) && decide (a.toNat % 2 ^ (c - 1) ≠ 0)

/-- Flags of a shift or rotate (44_prioritize_shift.md R222 to R226). -/
def shiftFlags (kind : ShiftKind) (a : Word) (c : Nat) : Flags where
  e := false
  z := shiftResult kind a c == 0
  v := match kind with
    | .shl => false
    | .rol => false
    | .shr => shiftSticky a c
    | .ashr => shiftSticky a c
    | .ror => shiftSticky a c
  c := shiftCarry kind a c
  n := (shiftResult kind a c).msb

/-- The zero bits above the most significant 1 among the low `k` bits of a word. -/
def leadingZeros (s : Word) : Nat → Nat
  | 0 => 0
  | k + 1 => if s.getLsbD k then 0 else leadingZeros s k + 1

/-- PRIOR: the left shifts that bring the most significant 1 into bit 15, 0 for a zero operand
(44_prioritize_shift.md R221). -/
def priorCount (s : Word) : Word := if s = 0 then 0 else BitVec.ofNat 16 (leadingZeros s 16)

/-- Flags of PRIOR (44_prioritize_shift.md R221). -/
def priorFlags (s : Word) : Flags := ⟨false, s == 0, false, false, false⟩

/-- The exact product (40_arithmetic.md R155, R156). -/
def product (signed : Bool) (a b : Word) : Int :=
  if signed then a.toInt * b.toInt else (a.toNat * b.toNat : Nat)

/-- Flags of MUL and MULU: V is set if the product does not fit a word, Z and N look at 32 bits
(40_arithmetic.md R155, R156). -/
def productFlags (signed : Bool) (a b : Word) : Flags where
  e := false
  z := decide (product signed a b = 0)
  v := if signed then outOfRange 16 (product signed a b) else decide (0xFFFF < product signed a b)
  c := false
  n := (BitVec.ofInt 32 (product signed a b)).msb

/-- The four divisions. -/
inductive DivKind where
  | div | divu | divl | divlu
  deriving DecidableEq, Repr

/-- Whether a division is signed. -/
def divSigned : DivKind → Bool
  | .div => true
  | .divl => true
  | .divu => false
  | .divlu => false

/-- The dividend: MDL, or the 32-bit MD (40_arithmetic.md R157 to R160). -/
def dividend (kind : DivKind) (mdh mdl : Word) : Int :=
  match kind with
  | .div => mdl.toInt
  | .divu => mdl.toNat
  | .divl => (mdh ++ mdl).toInt
  | .divlu => (mdh ++ mdl).toNat

/-- The divisor. -/
def divisor (kind : DivKind) (d : Word) : Int := if divSigned kind then d.toInt else d.toNat

/-- The quotient: of a signed division rounded as SDIV says, toward zero by default (40_arithmetic.md R157, R158, decision
D29). -/
def quotient (r : Rounding) (kind : DivKind) (mdh mdl d : Word) : Int :=
  match r with
  | .towardZero => (dividend kind mdh mdl).tdiv (divisor kind d)
  | .down => (dividend kind mdh mdl).fdiv (divisor kind d)

/-- The remainder: what the quotient leaves of the dividend (40_arithmetic.md R157 to R160). -/
def remainder (r : Rounding) (kind : DivKind) (mdh mdl d : Word) : Int :=
  dividend kind mdh mdl - quotient r kind mdh mdl d * divisor kind d

/-- Overflow of a division: a zero divisor, or a quotient that no word of the kind holds (40_arithmetic.md R157 to
R160). -/
def divOverflow (r : Rounding) (kind : DivKind) (mdh mdl d : Word) : Bool :=
  d == 0 ||
    if divSigned kind then outOfRange 16 (quotient r kind mdh mdl d)
    else decide (0xFFFF < quotient r kind mdh mdl d)

/-- Flags of a division that does not overflow: Z and N of the quotient. -/
def quotientFlags (q : Word) : Flags := ⟨false, q == 0, false, false, q.msb⟩

/-- Flags of a division that overflows: V is 1, E and C are 0, Z and N are free (40_arithmetic.md R157, "draw"). -/
def overflowFlags (draw : Nat) : Flags := ⟨false, Config.divZero draw, true, false, Config.divNegative draw⟩

end Sys2Proof.Machine
end

