-- ==== Sys2Proof/Machine/Ops.lean ====
section
/-!
DEFINITION. The named operations over memory, registers and the stack: memory cells, the CPU registers at their
addresses (10_state.md R33), the memory map (20_memory.md R84), reads and writes (R81), short and long addresses (R61
to R68), the system stack (R74), flag writes, taking a trap or an interrupt (60_exceptions.md R362) and the bookkeeping
of the return (R354), and how one instruction runs (10_state.md R27).
-/

namespace Sys2Proof.Machine

/-- One operation after another: the second runs on the state the first left, unless the first trapped or stopped. -/
def Res.bind {α β : Type} (x : Res α) (f : α → State → Res β) : Res β :=
  match x with
  | .ok v s => f v s
  | .trap t s => .trap t s
  | .fault e => .fault e
  | .refused r => .refused r

/-! Memory cells -/

/-- The byte listed at an address, if any. -/
def cellAt : List Host.Cell → Nat → Option Byte
  | [], _ => none
  | (a, v) :: rest, k => if a = k then some v else cellAt rest k

/-- The list with one byte set, its addresses still rising. -/
def putCell : List Host.Cell → Nat → Byte → List Host.Cell
  | [], k, v => [(k, v)]
  | (a, u) :: rest, k, v =>
    if k < a then (k, v) :: (a, u) :: rest
    else if k = a then (k, v) :: rest
    else (a, u) :: putCell rest k v

/-- The addresses listed are at least `lo`, strictly rising, and below 2^24. -/
def risingFrom : Nat → List Host.Cell → Bool
  | _, [] => true
  | lo, (a, _) :: rest => decide (lo ≤ a) && decide (a < 2 ^ 24) && risingFrom (a + 1) rest

/-- The canonical form of memory: addresses strictly rising inside the 16 MByte space (20_memory.md R60). An unlisted
address holds no written byte, so no entry can equal it. -/
def Memory.wf (m : List Host.Cell) : Bool := risingFrom 0 m

/-- The byte of memory at an address; a byte nothing has written is a free value (70_reset_and_hazards.md R391). -/
def byteAt (s : State) (a : Addr) : Byte := (cellAt s.mem a.toNat).getD (Config.unwrittenByte a.toNat)

/-- The word of memory at an even address, low byte at the lower address (20_memory.md R78). -/
def wordAt (s : State) (a : Addr) : Word := joinBytes (byteAt s (a + 1)) (byteAt s a)

/-- One byte of memory set. -/
def setByte (s : State) (a : Addr) (v : Byte) : State := { s with mem := putCell s.mem a.toNat v }

/-- The two bytes of a word set, low byte at the lower address (20_memory.md R78). -/
def setWord (s : State) (a : Addr) (v : Word) : State := setByte (setByte s a (loByte v)) (a + 1) (hiByte v)

/-! Addresses -/

/-- An address of segment 0 (20_memory.md R61, R74). -/
def near (off : Word) : Addr := off.setWidth 24

/-- The even address of the word that holds a byte. -/
def evenAddr (a : Addr) : Addr := a &&& 0xFFFFFE#24

/-- Whether an address is odd (20_memory.md R81). -/
def isOdd {k : Nat} (a : BitVec k) : Bool := a.getLsbD 0

/-- The SFR area 00'FE00h to 00'FFFFh and the ESFR area 00'F000h to 00'F1FFh (10_state.md R41). -/
def inSfrArea (a : Addr) : Bool :=
  decide (0xF000 ≤ a.toNat) && decide (a.toNat ≤ 0xF1FF) || decide (0xFE00 ≤ a.toNat) && decide (a.toNat ≤ 0xFFFF)

/-! The CPU registers -/

/-- The memory-mapped CPU registers (10_state.md R33). -/
inductive CpuReg where
  | dpp0 | dpp1 | dpp2 | dpp3 | csp | mdh | mdl | cp | sp | stkov | stkun | mdc | psw | syscon | zeros | ones | tfr
  deriving DecidableEq, Repr

/-- SFR_ADDR: the physical address of each CPU register (10_state.md R33). -/
def sfrAddr (m : SfrAddresses) : CpuReg → Addr
  | .dpp0 => m.dpp0
  | .dpp1 => m.dpp1
  | .dpp2 => m.dpp2
  | .dpp3 => m.dpp3
  | .csp => m.csp
  | .mdh => m.mdh
  | .mdl => m.mdl
  | .cp => m.cp
  | .sp => m.sp
  | .stkov => m.stkov
  | .stkun => m.stkun
  | .mdc => m.mdc
  | .psw => m.psw
  | .syscon => m.syscon
  | .zeros => m.zeros
  | .ones => m.ones
  | .tfr => m.tfr

/-- The CPU registers in the order of the table of 10_state.md R33. -/
def allCpuRegs : List CpuReg :=
  [.dpp0, .dpp1, .dpp2, .dpp3, .csp, .mdh, .mdl, .cp, .sp, .stkov, .stkun, .mdc, .psw, .syscon, .zeros, .ones, .tfr]

/-- The CPU register at an even address (20_memory.md R83). -/
def cpuRegAt (m : SfrAddresses) (a : Addr) : Option CpuReg := allCpuRegs.find? (fun r => sfrAddr m r == a)

/-- Whether an address is a byte of the PSW (10_state.md R31). -/
def isPswAddr (s : State) (a : Addr) : Bool := evenAddr a == s.par.sfr.psw

/-- The value of a CPU register: unused bits read 0, ZEROS and ONES are constants (10_state.md R26, R36, R40). -/
def readCpuReg (r : CpuReg) (s : State) : Word :=
  match r with
  | .dpp0 => zext16 s.dpp0
  | .dpp1 => zext16 s.dpp1
  | .dpp2 => zext16 s.dpp2
  | .dpp3 => zext16 s.dpp3
  | .csp => zext16 s.csp
  | .mdh => s.mdh
  | .mdl => s.mdl
  | .cp => s.cp
  | .sp => s.sp
  | .stkov => s.stkov
  | .stkun => s.stkun
  | .mdc => s.mdc
  | .psw => s.psw
  | .syscon => s.syscon
  | .zeros => 0x0000#16
  | .ones => 0xFFFF#16
  | .tfr => s.tfr

/-- The TFR bits that exist (60_exceptions.md R354). -/
def tfrMask (t : TrapTable) : Word :=
  bitAt t.nmiBit ||| bitAt t.stkofBit ||| bitAt t.stkufBit ||| bitAt t.undopcBit ||| bitAt t.prtfltBit |||
    bitAt t.illopaBit ||| bitAt t.illinaBit ||| bitAt t.illbusBit

/-- CP with its hardwired bits, CP_FIXED_MASK (10_state.md R34). -/
def fixCp (m : CpFixedMask) (v : Word) : Word := (v ||| m.ones) &&& ~~~m.zeros

/-- SP bit 0 is always 0 (10_state.md R35). -/
def fixSp (v : Word) : Word := v &&& 0xFFFE#16

/-- The state after an explicit write of a CPU register, read-only bits honoured (20_memory.md R81, 10_state.md R26,
R30, R34 to R40); the hazards of 70_reset_and_hazards.md R400 to R404 are recorded. -/
def putCpuReg (r : CpuReg) (v : Word) (s : State) : State :=
  match r with
  | .dpp0 => { s with dpp0 := v.extractLsb' 0 10, hazOut := { s.hazOut with dpp0 := true } }
  | .dpp1 => { s with dpp1 := v.extractLsb' 0 10, hazOut := { s.hazOut with dpp1 := true } }
  | .dpp2 => { s with dpp2 := v.extractLsb' 0 10, hazOut := { s.hazOut with dpp2 := true } }
  | .dpp3 => { s with dpp3 := v.extractLsb' 0 10, hazOut := { s.hazOut with dpp3 := true } }
  | .csp => s
  | .mdh => { s with mdh := v }
  | .mdl => { s with mdl := v }
  | .cp => { s with cp := fixCp s.par.cpFixed v, hazOut := { s.hazOut with cp := true } }
  | .sp => { s with sp := fixSp v, hazOut := { s.hazOut with sp := true } }
  | .stkov => { s with stkov := v }
  | .stkun => { s with stkun := v }
  | .mdc => { s with mdc := v }
  | .psw => { s with psw := v &&& pswMask s.par.psw, arbHist := (2, s.psw) :: s.arbHist }
  | .syscon => { s with syscon := v, hazOut := { s.hazOut with syscon := true } }
  | .zeros => s
  | .ones => s
  | .tfr => { s with tfr := v &&& tfrMask s.par.traps }

/-- Why a write of a CPU register is refused, if it is: SYSCON after EINIT (10_state.md R38), a TFR bit set by software
(60_exceptions.md R354). -/
def cpuRegRefusal (r : CpuReg) (v : Word) (s : State) : Option Refusal :=
  match r with
  | .syscon => if s.initDone then some .sysconLocked else none
  | .tfr => if v &&& tfrMask s.par.traps &&& ~~~s.tfr = 0#16 then none else some .trapFlagSet
  | _ => none

/-- A write of a CPU register. -/
def writeCpuReg (r : CpuReg) (v : Word) (s : State) : Res Unit :=
  match cpuRegRefusal r v s with
  | some e => .refused e
  | none => .ok () (putCpuReg r v s)

/-! The memory map -/

/-- The kind of the first region that holds an address; outside every region there is nothing (20_memory.md R84). -/
def regionKind : List Region → Nat → RegionKind
  | [], _ => .none
  | r :: rest, a => if r.first ≤ a ∧ a ≤ r.last then r.kind else regionKind rest a

/-- What an address holds. -/
inductive Place where
  | reg (r : CpuReg)
  | irq (k : Nat)
  | ram
  | rom
  | device
  | unmodelled
  | unmapped
  deriving DecidableEq, Repr

/-- The entry of IRQ_TABLE whose control register has an address (60_exceptions.md R365). -/
def irqIndexAt (irqs : List IrqSource) (a : Addr) : Option Nat := irqs.findIdx? (fun q => q.icAddr == a)

/-- MEMMAP: CPU registers and interrupt control registers first, then the regions (20_memory.md R84, 10_state.md
R41). -/
def place (s : State) (a : Addr) : Place :=
  match cpuRegAt s.par.sfr (evenAddr a) with
  | some r => .reg r
  | none =>
    match irqIndexAt s.irqs (evenAddr a) with
    | some k => .irq k
    | none =>
      match regionKind s.par.map a.toNat with
      | .ram => .ram
      | .rom => .rom
      | .device => .device
      | .none => if inSfrArea a then .unmodelled else .unmapped

/-- Whether an address lies above the decoded bits (20_memory.md R60, PA_BITS). -/
def beyondBits (s : State) (a : Addr) : Bool := decide (2 ^ s.par.paBits ≤ a.toNat)

/-- The word of an interrupt control register: bits 15:8 read 0 (60_exceptions.md R365). -/
def irqWord (s : State) (k : Nat) : Word :=
  match s.irqs[k]? with
  | some q => zext16 q.ic
  | none => 0#16

/-- An interrupt control register written. -/
def putIrq (s : State) (k : Nat) (v : Byte) : State :=
  { s with irqs := s.irqs.modify k (fun q => { q with ic := v }) }

/-- A device access passed to the environment (20_memory.md R86). -/
def signal (e : OutEvent) (s : State) : State := { s with events := e :: s.events }

/-- The byte of a word that an address selects. -/
def selectByte (a : Addr) (w : Word) : Byte := if isOdd a then hiByte w else loByte w

/-- A byte at its place in a word, the other byte 0 (10_state.md R31). -/
def placeByte (a : Addr) (v : Byte) : Word := if isOdd a then joinBytes v 0#8 else joinBytes 0#8 v

/-- A word with the byte that an address selects replaced (10_state.md R22). -/
def replaceByte (a : Addr) (v : Byte) (w : Word) : Word := if isOdd a then joinBytes v (loByte w) else joinBytes (hiByte w) v

/-- How the destination of a byte write is named: as a byte GPR, by `Rb` or by `reg` from F0h (10_state.md R22), or by an
address. A byte `reg` below F0h is a word write (20_memory.md R63). -/
inductive ByteRoute where
  | gpr
  | address
  deriving DecidableEq, Repr

/-- The word that a byte write leaves in a CPU register: only that byte changes (10_state.md R22, decision D23), but the PSW
written by an address has its other byte cleared (10_state.md R31); a byte GPR that CP puts on the PSW keeps it (R22,
40_arithmetic.md R161). DESIGN CHOICE: notes/assumptions/8.md. -/
def byteIntoReg (route : ByteRoute) (r : CpuReg) (a : Addr) (v : Byte) (s : State) : Word :=
  if r = .psw ∧ route = .address then placeByte a v else replaceByte a v (readCpuReg r s)

/-- A read of the word at an even address by what the address holds (20_memory.md R81). -/
def loadWord (a : Addr) (s : State) : Res Word :=
  if beyondBits s a then .fault (.beyondAddressBits a.toNat) else
  match place s a with
  | .reg r => .ok (readCpuReg r s) s
  | .irq k => .ok (irqWord s k) s
  | .ram => .ok (wordAt s a) s
  | .rom => .ok (wordAt s a) s
  | .device => .ok (Config.deviceData s.draws) { signal (.deviceRead a .word) s with draws := s.draws + 1 }
  | .unmodelled => .refused (.unmodelledRegister a.toNat)
  | .unmapped => .fault (.unmapped a.toNat)

/-- A read of a byte by what its address holds (20_memory.md R81). -/
def loadByte (a : Addr) (s : State) : Res Byte :=
  if beyondBits s a then .fault (.beyondAddressBits a.toNat) else
  match place s a with
  | .reg r => .ok (selectByte a (readCpuReg r s)) s
  | .irq k => .ok (selectByte a (irqWord s k)) s
  | .ram => .ok (byteAt s a) s
  | .rom => .ok (byteAt s a) s
  | .device => .ok (loByte (Config.deviceData s.draws)) { signal (.deviceRead a .byte) s with draws := s.draws + 1 }
  | .unmodelled => .refused (.unmodelledRegister a.toNat)
  | .unmapped => .fault (.unmapped a.toNat)

/-- A write of the word at an even address by what the address holds (20_memory.md R81). -/
def storeWord (a : Addr) (v : Word) (s : State) : Res Unit :=
  if beyondBits s a then .fault (.beyondAddressBits a.toNat) else
  match place s a with
  | .reg r => writeCpuReg r v s
  | .irq k => .ok () (putIrq s k (loByte v))
  | .ram => .ok () (setWord s a v)
  | .rom => .refused (.romWrite a.toNat)
  | .device => .ok () (signal (.deviceWrite a .word v) s)
  | .unmodelled => .refused (.unmodelledRegister a.toNat)
  | .unmapped => .fault (.unmapped a.toNat)

/-- A write of a byte by what its address holds; bits 15:8 of an interrupt control register discard it (20_memory.md R81,
60_exceptions.md R365). -/
def storeByte (route : ByteRoute) (a : Addr) (v : Byte) (s : State) : Res Unit :=
  if beyondBits s a then .fault (.beyondAddressBits a.toNat) else
  match place s a with
  | .reg r => writeCpuReg r (byteIntoReg route r a v s) s
  | .irq k => .ok () (if isOdd a then s else putIrq s k v)
  | .ram => .ok () (setByte s a v)
  | .rom => .refused (.romWrite a.toNat)
  | .device => .ok () (signal (.deviceWrite a .byte (zext16 v)) s)
  | .unmodelled => .refused (.unmodelledRegister a.toNat)
  | .unmapped => .fault (.unmapped a.toNat)

/-- MemRead: a word access at an odd address is not executed and raises ILLOPA (20_memory.md R81, R82). -/
def memRead (w : Width) (a : Addr) (s : State) : Res (BitVec w.bits) :=
  match w with
  | .byte => loadByte a s
  | .word => if isOdd a then .trap .illopa s else loadWord a s

/-- Whether a store goes to the bytes after the instruction that the pipeline may have fetched: PREFETCH_WINDOW bytes
from the next instruction on, in the current code segment (20_memory.md R91, 70_reset_and_hazards.md R405). -/
def inWindow (s : State) (nx : Word) (a : Addr) : Bool :=
  (a.extractLsb' 16 8 == s.csp) && decide ((a.extractLsb' 0 16 - nx).toNat < s.par.prefetchWindow)

/-- MemWrite by an instruction whose next instruction is at `nx`, to a destination named as `route` says
(20_memory.md R81, R82, R91). -/
def storeBy (route : ByteRoute) (w : Width) (nx : Word) (a : Addr) (v : BitVec w.bits) (s : State) : Res Unit :=
  match w with
  | .byte => if inWindow s nx a then .refused (.codeWindow a.toNat) else storeByte route a v s
  | .word =>
    if isOdd a then .trap .illopa s
    else if inWindow s nx a || inWindow s nx (a + 1) then .refused (.codeWindow a.toNat)
    else storeWord a v s

/-- MemWrite to an address (20_memory.md R81). -/
def memWrite (w : Width) (nx : Word) (a : Addr) (v : BitVec w.bits) (s : State) : Res Unit := storeBy .address w nx a v s

/-! Short and long addresses -/

/-- Whether a context pointer is even and its bank ends at or below FFFFh (10_state.md R34). -/
def bankOk (cp : Word) : Bool := !isOdd cp && decide (cp.toNat + 31 ≤ 0xFFFF)

/-- GPRaddr and GPRBaddr: word GPR n at (CP) + 2n, byte GPR n at (CP) + n, in segment 0 (20_memory.md R61, 10_state.md
R21, R22). Refused right after a write of CP (70_reset_and_hazards.md R400). -/
def gprAddr (w : Width) (n : RegNum) (s : State) : Res Addr :=
  if s.hazIn.cp then .refused .hazardCp
  else if bankOk s.cp then
    .ok (near (s.cp + match w with
      | .byte => zext16 n
      | .word => 2#16 * zext16 n)) s
  else .refused .badContextPointer

/-- RegAddr: F0h to FFh name GPRs, 00h to EFh (E)SFRs (20_memory.md R62). -/
def shortAddr (w : Width) (rr : ShortReg) (s : State) : Res Addr :=
  if 0xF0#8 ≤ rr then gprAddr w (nibLo rr) s
  else .ok (near ((if s.extEsfr then 0xF000#16 else 0xFE00#16) + 2#16 * zext16 rr)) s

/-- BitWord: the word a bit offset names (20_memory.md R64). -/
def bitWordAddr (qq : BitOff) (s : State) : Res Addr :=
  if qq ≤ 0x7F#8 then .ok (near (0xFD00#16 + 2#16 * zext16 qq)) s
  else if qq ≤ 0xEF#8 then
    .ok (near ((if s.extEsfr then 0xF100#16 else 0xFF00#16) + 2#16 * zext16 (qq &&& 0x7F#8))) s
  else gprAddr .word (nibLo qq) s

/-- The data page pointer that bits 15:14 of a long address select (20_memory.md R66). -/
def dppOf (s : State) (i : BitVec 2) : BitVec 10 :=
  match i.toNat with
  | 0 => s.dpp0
  | 1 => s.dpp1
  | 2 => s.dpp2
  | _ => s.dpp3

/-- Whether the previous instruction wrote that data page pointer (70_reset_and_hazards.md R401). -/
def dppHazard (s : State) (i : BitVec 2) : Bool :=
  match i.toNat with
  | 0 => s.hazIn.dpp0
  | 1 => s.hazIn.dpp1
  | 2 => s.hazIn.dpp2
  | _ => s.hazIn.dpp3

/-- DataAddr: a long address through its DPP, or through the page or segment override (20_memory.md R66, R68). -/
def dataAddr (a : Word) (s : State) : Res Addr :=
  match s.extOvr with
  | .none =>
    if dppHazard s (a.extractLsb' 14 2) then .refused .hazardDpp
    else .ok (dppOf s (a.extractLsb' 14 2) ++ a.extractLsb' 0 14) s
  | .page p => .ok (p ++ a.extractLsb' 0 14) s
  | .seg g => .ok (g ++ a) s

/-! General registers -/

/-- Reads GPR n of a width: x[n] or xb[n] (00_scope.md R10). -/
def readGpr (w : Width) (n : RegNum) (s : State) : Res (BitVec w.bits) :=
  (gprAddr w n s).bind fun a s => memRead w a s

/-- Writes GPR n of a width. -/
def writeGpr (w : Width) (nx : Word) (n : RegNum) (v : BitVec w.bits) (s : State) : Res Unit :=
  (gprAddr w n s).bind fun a s => storeBy .gpr w nx a v s

/-! Flags -/

/-- flags{E,Z,V,C,N} ← f (00_scope.md R10). -/
def setFlags (f : Flags) (s : State) : State := { s with psw := putFlags s.par.psw s.psw f }

/-- The five flags as the PSW holds them (10_state.md R29, R30). -/
def State.flags (s : State) : Flags := flagsOf s.par.psw s.psw

/-- The flag write of an instruction with a destination: skipped when that is the PSW (10_state.md R31). -/
def setFlagsFor (dst : Addr) (f : Flags) (s : State) : State := if isPswAddr s dst then s else setFlags f s

/-! The system stack -/

/-- After a push: below STKOV the request STKOF arises, or with STACK_LIMITS off the model refuses
(60_exceptions.md R358). -/
def checkOverflow (s : State) : Res Unit :=
  if s.sp < s.stkov then
    if s.par.stackLimits then .ok () { s with tfr := s.tfr ||| bitAt s.par.traps.stkofBit, pendStkof := true }
    else .refused .stackOverflow
  else .ok () s

/-- After a pop: above STKUN the request STKUF arises, or with STACK_LIMITS off the model refuses
(60_exceptions.md R358). -/
def checkUnderflow (s : State) : Res Unit :=
  if s.stkun < s.sp then
    if s.par.stackLimits then .ok () { s with tfr := s.tfr ||| bitAt s.par.traps.stkufBit, pendStkuf := true }
    else .refused .stackUnderflow
  else .ok () s

/-- Push by an instruction: SP ← SP - 2, then the word at SP in segment 0 (20_memory.md R74). Refused right after an
explicit write of SP (70_reset_and_hazards.md R402). -/
def push (nx : Word) (v : Word) (s : State) : Res Unit :=
  if s.hazIn.sp then .refused .hazardSp else
  (memWrite .word nx (near (s.sp - 2#16)) v { s with sp := s.sp - 2#16 }).bind fun _ s => checkOverflow s

/-- Pop: the word at SP in segment 0, then SP ← SP + 2 (20_memory.md R74). -/
def pop (s : State) : Res Word :=
  if s.hazIn.sp then .refused .hazardSp else
  (memRead .word (near s.sp) s).bind fun v s =>
    (checkUnderflow { s with sp := s.sp + 2#16 }).bind fun _ s => .ok v s

/-! Taking a trap or an interrupt, and what a return leaves -/

/-- SGTDIS, bit 11 of SYSCON (10_state.md R38). -/
def sgtdis (s : State) : Bool := s.syscon.getLsbD 11

/-- A push of the entry sequence (60_exceptions.md R362, R369): no instruction's store, so no prefetch window and no
hazard. -/
def entryPush (v : Word) (s : State) : Res Unit :=
  if isOdd (s.sp - 2#16) then .refused .oddStackInEntry else
  (storeWord (near (s.sp - 2#16)) v { s with sp := s.sp - 2#16 }).bind fun _ s => checkOverflow s

/-- The end of an entry, once the frame is pushed: ILVL becomes the level, CSP 0 while SGTDIS is 0, IP the vector
4 * number, run running (60_exceptions.md R362). The entry removes every hazard (70_reset_and_hazards.md R406). -/
def arrive (f : Frame) (number : TrapNum) (level : BitVec 4) (s : State) : State :=
  { s with
    psw := withIlvl s.par.psw s.psw level
    csp := if sgtdis s then s.csp else 0#8
    ip := 4#16 * zext16 number
    run := .running
    hazIn := Hazards.clear
    hazOut := Hazards.clear
    arbHist := []
    frames := f :: s.frames }

/-- CSP pushed, in segmented mode only (60_exceptions.md R362). -/
def entryPushCsp (s : State) : Res Unit := if sgtdis s then .ok () s else entryPush (zext16 s.csp) s

/-- Enter (60_exceptions.md R362): PSW is pushed, CSP if SGTDIS is then 0, and IP; then the vector. -/
def enter (f : Frame) (number : TrapNum) (level : BitVec 4) (ret : Word) (s : State) : Res Unit :=
  (entryPush s.psw s).bind fun _ s =>
  (entryPushCsp s).bind fun _ s =>
  (entryPush ret s).bind fun _ s =>
  .ok () (arrive f number level s)

/-- The TFR flag of a class B trap (60_exceptions.md R351, R354). -/
def classBFlag (t : TrapTable) : ClassB → Word
  | .undopc => bitAt t.undopcBit
  | .prtflt => bitAt t.prtfltBit
  | .illopa => bitAt t.illopaBit
  | .illina => bitAt t.illinaBit

/-- The class A flags of TFR: NMI, STKOF, STKUF (60_exceptions.md R354). -/
def classAFlags (t : TrapTable) : Word := bitAt t.nmiBit ||| bitAt t.stkofBit ||| bitAt t.stkufBit

/-- The class B flags of TFR (60_exceptions.md R354). -/
def classBFlags (t : TrapTable) : Word :=
  bitAt t.undopcBit ||| bitAt t.prtfltBit ||| bitAt t.illopaBit ||| bitAt t.illinaBit ||| bitAt t.illbusBit

/-- The entry of class B: the sequence ends first (48_system_control.md R338), then the trap of class B at level 15
(60_exceptions.md R351, R362); refused while a class A flag is set in TFR, a class A trap that is
still pending with its flag cleared not counting (R368, decision D30; DESIGN CHOICE: notes/assumptions/39.md). -/
def enterB (ret : Word) (s : State) : Res Unit :=
  if s.tfr &&& classAFlags s.par.traps = 0#16 then
    enter .classB s.par.traps.classB 15#4 ret
      { s with extCount := 0, extEsfr := false, extOvr := .none, retrapB := false }
  else .refused .classBDuringClassA

/-- A class B trap raised now: its flag is set, then the entry (60_exceptions.md R354, R362). -/
def raiseB (t : ClassB) (ret : Word) (s : State) : Res Unit := enterB ret
  { s with tfr := s.tfr ||| classBFlag s.par.traps t }

/-- The trap number of a class A trap (60_exceptions.md R351). -/
def classANumber (t : TrapTable) : ClassA → TrapNum
  | .nmi => t.nmi
  | .stkof => t.stkof
  | .stkuf => t.stkuf

/-- The entry of a pending class A trap: it is no longer pending (60_exceptions.md R351, R352, R362). -/
def enterA (k : ClassA) (s : State) : Res Unit :=
  enter (.classA k) (classANumber s.par.traps k) 15#4 s.ip
    (match k with
    | .nmi => { s with pendNmi := false }
    | .stkof => { s with pendStkof := false }
    | .stkuf => { s with pendStkuf := false })

/-- A service routine has returned: a trap routine whose flag is still set is entered again (60_exceptions.md R354,
47_stack_return.md R305). -/
def leaveFrame (s : State) : State :=
  match s.frames with
  | [] => s
  | .classA .nmi :: rest => { s with frames := rest, pendNmi := s.pendNmi || s.tfr.getLsbD s.par.traps.nmiBit }
  | .classA .stkof :: rest => { s with frames := rest, pendStkof := s.pendStkof || s.tfr.getLsbD s.par.traps.stkofBit }
  | .classA .stkuf :: rest => { s with frames := rest, pendStkuf := s.pendStkuf || s.tfr.getLsbD s.par.traps.stkufBit }
  | .classB :: rest => { s with frames := rest, retrapB := s.retrapB || !(s.tfr &&& classBFlags s.par.traps == 0#16) }
  | .interrupt :: rest => { s with frames := rest }
  | .software :: rest => { s with frames := rest }

/-! Reset -/

/-- The reset transition (70_reset_and_hazards.md R390, R391): every register takes its reset value, with its hardwired
bits; memory is not changed; what belongs to the environment stays, the interrupt control registers are cleared
(60_exceptions.md R365). -/
def resetCpu (s : State) : State :=
  { State.reset with
    mem := s.mem
    ip := s.par.reset.ip
    csp := s.par.reset.csp
    psw := s.par.reset.psw &&& pswMask s.par.psw
    cp := fixCp s.par.cpFixed s.par.reset.cp
    sp := fixSp s.par.reset.sp
    stkov := s.par.reset.stkov
    stkun := s.par.reset.stkun
    mdl := s.par.reset.mdl
    mdh := s.par.reset.mdh
    mdc := s.par.reset.mdc
    syscon := s.par.reset.syscon
    tfr := s.par.reset.tfr &&& tfrMask s.par.traps
    par := s.par
    irqs := s.irqs.map (fun q => { q with ic := 0#8 })
    inputs := s.inputs
    events := s.events
    draws := s.draws
    nmiPinLow := s.nmiPinLow }

/-! One instruction -/

/-- The stacked IP of a class B trap: the instruction itself, or the one after it (60_exceptions.md R351). An odd
instruction address is its own. -/
def stackedIp (t : ClassB) (own nx : Word) : Word :=
  match t with
  | .undopc => own
  | .prtflt => own
  | .illopa => nx
  | .illina => own

/-- The outcome of an entry. -/
def outcomeOf (r : Res Unit) : Host.Outcome State Fault Refusal :=
  match r with
  | .ok _ s => .next s
  | .trap _ _ => .refused .oddStackInEntry
  | .fault f => .fault f
  | .refused e => .refused e

/-- One instruction of `len` bytes whose body answers the next IP (10_state.md R27); a class B trap of the body is
taken at once with the state the earlier steps left (60_exceptions.md R352, R355). -/
def runInstr (len : Word) (body : Word → State → Res Word) (s : State) : Host.Outcome State Fault Refusal :=
  match body (s.ip + len) s with
  | .ok target s' => .next { s' with ip := target }
  | .trap t s' => outcomeOf (raiseB t (stackedIp t s.ip (s.ip + len)) s')
  | .fault f => .fault f
  | .refused e => .refused e

/-- One instruction that does not transfer control: it ends with IP ← IPnext (10_state.md R27). -/
def seqInstr (len : Word) (body : Word → State → Res Unit) (s : State) : Host.Outcome State Fault Refusal :=
  runInstr len (fun nx s => (body nx s).bind fun _ s => .ok nx s) s

end Sys2Proof.Machine
end

