-- ==== Sys2Proof/Machine/Operands.lean ====
section
/-!
DEFINITION. The operand forms (00_scope.md R11, 20_memory.md R61 to R71): where an operand lies, how its address is
formed, and how a source operand is read.
-/

namespace Sys2Proof.Machine

/-- Where an operand lies: `Rw` or `Rb`, `reg`, `mem`, `[Rw]`, `[Rw+#data16]` (20_memory.md R61, R62, R67, R70). -/
inductive Loc where
  | gpr (n : RegNum)
  | short (rr : ShortReg)
  | long (a : Word)
  | ind (k : RegNum)
  | disp (k : RegNum) (d : Word)
  deriving DecidableEq, Repr

/-- A source operand: an immediate, or a location (00_scope.md R11). -/
inductive Src where
  | imm (d : Word)
  | loc (l : Loc)
  deriving DecidableEq, Repr

/-- The physical address of an operand; pointers are word GPRs whatever the width (20_memory.md R69, 10_state.md
R23). -/
def locAddr (w : Width) (l : Loc) (s : State) : Res Addr :=
  match l with
  | .gpr n => gprAddr w n s
  | .short rr => shortAddr w rr s
  | .long a => dataAddr a s
  | .ind k => (readGpr .word k s).bind fun p s => dataAddr p s
  | .disp k d => (readGpr .word k s).bind fun p s => dataAddr (p + d) s

/-- An immediate at the width of the instruction: a byte instruction takes the low byte (30_encoding.md R105). -/
def immValue (w : Width) (d : Word) : BitVec w.bits := d.setWidth w.bits

/-- The value of an operand that lies in memory or a register. -/
def readLoc (w : Width) (l : Loc) (s : State) : Res (BitVec w.bits) :=
  (locAddr w l s).bind fun a s => memRead w a s

/-- The value of a source operand. -/
def readSrc (w : Width) (o : Src) (s : State) : Res (BitVec w.bits) :=
  match o with
  | .imm d => .ok (immValue w d) s
  | .loc l => readLoc w l s

/-- Δ: 1 for byte and 2 for word operations (20_memory.md R69). -/
def widthStep : Width → Word
  | .byte => 1#16
  | .word => 2#16

/-- The pointer register of a 2-bit field: R0 to R3 (10_state.md R23). -/
def ptrReg (i : PtrNum) : RegNum := i.setWidth 4

/-- Whether data register `n` of a width is the pointer register `k` or a half of it (20_memory.md R71,
45_data_movement.md R230; 10_state.md R22: byte GPRs 2k and 2k+1 are the halves of Rk). -/
def clashes (w : Width) (n k : RegNum) : Bool :=
  match w with
  | .byte => n >>> 1 == k
  | .word => n == k

/-- The operand of `[Rw+]`: its value and the incremented pointer (20_memory.md R69, steps 1 to 5). -/
structure PostInc (w : Width) where
  value : BitVec w.bits
  next : Word

/-- Reads the operand of `[Rw+]`; the incremented pointer is written by a later step, to the register as it then lies
(20_memory.md R69, step 5; 10_state.md R24). DEDUCED: notes/assumptions/12.md. -/
def readPostInc (w : Width) (k : RegNum) (s : State) : Res (PostInc w) :=
  (readGpr .word k s).bind fun p s =>
  (dataAddr p s).bind fun a s =>
  (memRead w a s).bind fun v s =>
  .ok ⟨v, p + widthStep w⟩ s

/-- Whether a store to an operand is one of a whole word whatever the width: a byte written through `reg` below F0h clears
the high byte of the (E)SFR (20_memory.md R63). -/
def storesWord (w : Width) (l : Loc) : Bool :=
  match w, l with
  | .byte, .short rr => decide (rr < 0xF0#8)
  | _, _ => false

/-- How an operand names a byte destination: `reg` from F0h names byte GPRs, as `Rb` does (20_memory.md R62, R63). -/
def byteRoute (l : Loc) : ByteRoute :=
  match l with
  | .gpr _ => .gpr
  | .short rr => if 0xF0#8 ≤ rr then .gpr else .address
  | .long _ => .address
  | .ind _ => .address
  | .disp _ _ => .address

/-- The store to an operand whose address has been formed (20_memory.md R63, R81). -/
def storeLoc (w : Width) (l : Loc) (nx : Word) (d : Addr) (v : BitVec w.bits) (s : State) : Res Unit :=
  if storesWord w l then memWrite .word nx d (v.setWidth 16) s else storeBy (byteRoute l) w nx d v s

/-- Reads a bit operand: the word's address, the word, the bit (42_boolean_bit.md R190, GetBit). -/
def readBit (qq : BitOff) (q : BitPos) (s : State) : Res Bool :=
  (bitWordAddr qq s).bind fun a s =>
  (memRead .word a s).bind fun w s =>
  .ok (w.getLsbD q.toNat) s

/-- A word with one bit replaced (20_memory.md R65). -/
def setBit (w : Word) (q : BitPos) (b : Bool) : Word := putBit w q.toNat b

end Sys2Proof.Machine
end

