-- ==== Sys2Proof/Machine/Arithmetic.lean ====
section
/-!
DEFINITION. Arithmetic instructions (40_arithmetic.md): the two-operand operation shared by the forms of R140, CPL, NEG,
multiply and divide, and one meaning per row of ADD, ADDC, SUB, SUBC, CPL, NEG, MUL, MULU and the DIV family.
-/

namespace Sys2Proof.Machine

/-- op1 ← op1 op op2 (40_arithmetic.md R140, steps 2 to 6): op2 is read, then op1, then the result is written to op1,
then the flags unless op1 is the PSW. -/
def alu (op : AluOp) (w : Width) (dst : Loc) (src : Src) (nx : Word) (s : State) : Res Unit :=
  (readSrc w src s).bind fun b s =>
  (locAddr w dst s).bind fun d s =>
  (memRead w d s).bind fun a s =>
  (storeLoc w dst nx d (aluResult op s.flags a b) s).bind fun _ t =>
  .ok () (setFlagsFor d (aluFlags op s.flags a b) t)

/-- The `[Rwi+]` form: as `alu`, then the incremented pointer is written (40_arithmetic.md R140, step 7). Refused when
the pointer is the other operand (20_memory.md R71). -/
def aluInc (op : AluOp) (w : Width) (n k : RegNum) (nx : Word) (s : State) : Res Unit :=
  if clashes w n k then .refused .sameRegister else
  (readPostInc w k s).bind fun b s =>
  (gprAddr w n s).bind fun d s =>
  (memRead w d s).bind fun a s =>
  (storeLoc w (.gpr n) nx d (aluResult op s.flags a b.value) s).bind fun _ t =>
  writeGpr .word nx k b.next (setFlagsFor d (aluFlags op s.flags a b.value) t)

/-- CPL and CPLB: one's complement of a GPR (40_arithmetic.md R151, R152). -/
def complement (w : Width) (n : RegNum) (nx : Word) (s : State) : Res Unit :=
  (gprAddr w n s).bind fun d s =>
  (memRead w d s).bind fun a s =>
  (storeLoc w (.gpr n) nx d (~~~a) s).bind fun _ s =>
  .ok () (setFlagsFor d (cplFlags a) s)

/-- NEG and NEGB: 0 - op1 with the subtraction flags, op2 the operand (40_arithmetic.md R153, R154). -/
def negate (w : Width) (n : RegNum) (nx : Word) (s : State) : Res Unit :=
  (gprAddr w n s).bind fun d s =>
  (memRead w d s).bind fun a s =>
  (storeLoc w (.gpr n) nx d (subValue 0 a false) s).bind fun _ s =>
  .ok () (setFlagsFor d (subFlags 0 a false true) s)

/-- MUL and MULU: MD ← op1 * op2; MULIP and MDC stay as they are (40_arithmetic.md R155, R156, R162; DESIGN CHOICE:
notes/assumptions/29.md). -/
def multiply (signed : Bool) (n m : RegNum) (_nx : Word) (s : State) : Res Unit :=
  (readGpr .word n s).bind fun a s =>
  (readGpr .word m s).bind fun b s =>
  .ok () (setFlags (productFlags signed a b)
    { s with
      mdh := (BitVec.ofInt 32 (product signed a b)).extractLsb' 16 16
      mdl := (BitVec.ofInt 32 (product signed a b)).extractLsb' 0 16 })

/-- The DIV family: MDL ← quotient, MDH ← remainder; on overflow V is 1, E and C are 0, and MDL, MDH, Z and N are free
(40_arithmetic.md R157 to R160). -/
def divide (kind : DivKind) (n : RegNum) (_nx : Word) (s : State) : Res Unit :=
  (readGpr .word n s).bind fun d s =>
  let bad := divOverflow s.par.sdiv kind s.mdh s.mdl d
  let q := BitVec.ofInt 16 (quotient s.par.sdiv kind s.mdh s.mdl d)
  .ok () (setFlags (if bad then overflowFlags s.draws else quotientFlags q)
    { s with
      mdl := if bad then Config.divQuotient s.draws else q
      mdh := if bad then Config.divRemainder s.draws
        else BitVec.ofInt 16 (remainder s.par.sdiv kind s.mdh s.mdl d)
      draws := if bad then s.draws + 1 else s.draws })

/-- ADD Rwn, Rwm `00 nm` (R143). -/
def execAddRwRw (n : RegNum) (m : RegNum) (s : State) : Host.Outcome State Fault Refusal :=
  seqInstr 2#16 (alu .add .word (.gpr n) (.loc (.gpr m))) s

/-- ADD reg, mem `02 RR MM MM` (R143). -/
def execAddRegMem (r : ShortReg) (a : Word) (s : State) : Host.Outcome State Fault Refusal :=
  seqInstr 4#16 (alu .add .word (.short r) (.loc (.long a))) s

/-- ADD mem, reg `04 RR MM MM` (R143). -/
def execAddMemReg (a : Word) (r : ShortReg) (s : State) : Host.Outcome State Fault Refusal :=
  seqInstr 4#16 (alu .add .word (.long a) (.loc (.short r))) s

/-- ADD reg, #data16 `06 RR ## ##` (R143). -/
def execAddRegImm (r : ShortReg) (d : Word) (s : State) : Host.Outcome State Fault Refusal :=
  seqInstr 4#16 (alu .add .word (.short r) (.imm d)) s

/-- ADD Rwn, #data3 `08 n:0###` (R143). -/
def execAddRwImm3 (n : RegNum) (d : BitVec 3) (s : State) : Host.Outcome State Fault Refusal :=
  seqInstr 2#16 (alu .add .word (.gpr n) (.imm (zext16 d))) s

/-- ADD Rwn, [Rwi] `08 n:10ii` (R143). -/
def execAddRwInd (n : RegNum) (i : PtrNum) (s : State) : Host.Outcome State Fault Refusal :=
  seqInstr 2#16 (alu .add .word (.gpr n) (.loc (.ind (ptrReg i)))) s

/-- ADD Rwn, [Rwi+] `08 n:11ii` (R143). -/
def execAddRwInc (n : RegNum) (i : PtrNum) (s : State) : Host.Outcome State Fault Refusal :=
  seqInstr 2#16 (aluInc .add .word n (ptrReg i)) s

/-- ADDB Rbn, Rbm `01 nm` (R144). -/
def execAddbRbRb (n : RegNum) (m : RegNum) (s : State) : Host.Outcome State Fault Refusal :=
  seqInstr 2#16 (alu .add .byte (.gpr n) (.loc (.gpr m))) s

/-- ADDB reg, mem `03 RR MM MM` (R144). -/
def execAddbRegMem (r : ShortReg) (a : Word) (s : State) : Host.Outcome State Fault Refusal :=
  seqInstr 4#16 (alu .add .byte (.short r) (.loc (.long a))) s

/-- ADDB mem, reg `05 RR MM MM` (R144). -/
def execAddbMemReg (a : Word) (r : ShortReg) (s : State) : Host.Outcome State Fault Refusal :=
  seqInstr 4#16 (alu .add .byte (.long a) (.loc (.short r))) s

/-- ADDB reg, #data16 `07 RR ## ##` (R144). -/
def execAddbRegImm (r : ShortReg) (d : Word) (s : State) : Host.Outcome State Fault Refusal :=
  seqInstr 4#16 (alu .add .byte (.short r) (.imm d)) s

/-- ADDB Rbn, #data3 `09 n:0###` (R144). -/
def execAddbRbImm3 (n : RegNum) (d : BitVec 3) (s : State) : Host.Outcome State Fault Refusal :=
  seqInstr 2#16 (alu .add .byte (.gpr n) (.imm (zext16 d))) s

/-- ADDB Rbn, [Rwi] `09 n:10ii` (R144). -/
def execAddbRbInd (n : RegNum) (i : PtrNum) (s : State) : Host.Outcome State Fault Refusal :=
  seqInstr 2#16 (alu .add .byte (.gpr n) (.loc (.ind (ptrReg i)))) s

/-- ADDB Rbn, [Rwi+] `09 n:11ii` (R144). -/
def execAddbRbInc (n : RegNum) (i : PtrNum) (s : State) : Host.Outcome State Fault Refusal :=
  seqInstr 2#16 (aluInc .add .byte n (ptrReg i)) s

/-- ADDC Rwn, Rwm `10 nm` (R145). -/
def execAddcRwRw (n : RegNum) (m : RegNum) (s : State) : Host.Outcome State Fault Refusal :=
  seqInstr 2#16 (alu .addc .word (.gpr n) (.loc (.gpr m))) s

/-- ADDC reg, mem `12 RR MM MM` (R145). -/
def execAddcRegMem (r : ShortReg) (a : Word) (s : State) : Host.Outcome State Fault Refusal :=
  seqInstr 4#16 (alu .addc .word (.short r) (.loc (.long a))) s

/-- ADDC mem, reg `14 RR MM MM` (R145). -/
def execAddcMemReg (a : Word) (r : ShortReg) (s : State) : Host.Outcome State Fault Refusal :=
  seqInstr 4#16 (alu .addc .word (.long a) (.loc (.short r))) s

/-- ADDC reg, #data16 `16 RR ## ##` (R145). -/
def execAddcRegImm (r : ShortReg) (d : Word) (s : State) : Host.Outcome State Fault Refusal :=
  seqInstr 4#16 (alu .addc .word (.short r) (.imm d)) s

/-- ADDC Rwn, #data3 `18 n:0###` (R145). -/
def execAddcRwImm3 (n : RegNum) (d : BitVec 3) (s : State) : Host.Outcome State Fault Refusal :=
  seqInstr 2#16 (alu .addc .word (.gpr n) (.imm (zext16 d))) s

/-- ADDC Rwn, [Rwi] `18 n:10ii` (R145). -/
def execAddcRwInd (n : RegNum) (i : PtrNum) (s : State) : Host.Outcome State Fault Refusal :=
  seqInstr 2#16 (alu .addc .word (.gpr n) (.loc (.ind (ptrReg i)))) s

/-- ADDC Rwn, [Rwi+] `18 n:11ii` (R145). -/
def execAddcRwInc (n : RegNum) (i : PtrNum) (s : State) : Host.Outcome State Fault Refusal :=
  seqInstr 2#16 (aluInc .addc .word n (ptrReg i)) s

/-- ADDCB Rbn, Rbm `11 nm` (R146). -/
def execAddcbRbRb (n : RegNum) (m : RegNum) (s : State) : Host.Outcome State Fault Refusal :=
  seqInstr 2#16 (alu .addc .byte (.gpr n) (.loc (.gpr m))) s

/-- ADDCB reg, mem `13 RR MM MM` (R146). -/
def execAddcbRegMem (r : ShortReg) (a : Word) (s : State) : Host.Outcome State Fault Refusal :=
  seqInstr 4#16 (alu .addc .byte (.short r) (.loc (.long a))) s

/-- ADDCB mem, reg `15 RR MM MM` (R146). -/
def execAddcbMemReg (a : Word) (r : ShortReg) (s : State) : Host.Outcome State Fault Refusal :=
  seqInstr 4#16 (alu .addc .byte (.long a) (.loc (.short r))) s

/-- ADDCB reg, #data16 `17 RR ## ##` (R146). -/
def execAddcbRegImm (r : ShortReg) (d : Word) (s : State) : Host.Outcome State Fault Refusal :=
  seqInstr 4#16 (alu .addc .byte (.short r) (.imm d)) s

/-- ADDCB Rbn, #data3 `19 n:0###` (R146). -/
def execAddcbRbImm3 (n : RegNum) (d : BitVec 3) (s : State) : Host.Outcome State Fault Refusal :=
  seqInstr 2#16 (alu .addc .byte (.gpr n) (.imm (zext16 d))) s

/-- ADDCB Rbn, [Rwi] `19 n:10ii` (R146). -/
def execAddcbRbInd (n : RegNum) (i : PtrNum) (s : State) : Host.Outcome State Fault Refusal :=
  seqInstr 2#16 (alu .addc .byte (.gpr n) (.loc (.ind (ptrReg i)))) s

/-- ADDCB Rbn, [Rwi+] `19 n:11ii` (R146). -/
def execAddcbRbInc (n : RegNum) (i : PtrNum) (s : State) : Host.Outcome State Fault Refusal :=
  seqInstr 2#16 (aluInc .addc .byte n (ptrReg i)) s

/-- SUB Rwn, Rwm `20 nm` (R147). -/
def execSubRwRw (n : RegNum) (m : RegNum) (s : State) : Host.Outcome State Fault Refusal :=
  seqInstr 2#16 (alu .sub .word (.gpr n) (.loc (.gpr m))) s

/-- SUB reg, mem `22 RR MM MM` (R147). -/
def execSubRegMem (r : ShortReg) (a : Word) (s : State) : Host.Outcome State Fault Refusal :=
  seqInstr 4#16 (alu .sub .word (.short r) (.loc (.long a))) s

/-- SUB mem, reg `24 RR MM MM` (R147). -/
def execSubMemReg (a : Word) (r : ShortReg) (s : State) : Host.Outcome State Fault Refusal :=
  seqInstr 4#16 (alu .sub .word (.long a) (.loc (.short r))) s

/-- SUB reg, #data16 `26 RR ## ##` (R147). -/
def execSubRegImm (r : ShortReg) (d : Word) (s : State) : Host.Outcome State Fault Refusal :=
  seqInstr 4#16 (alu .sub .word (.short r) (.imm d)) s

/-- SUB Rwn, #data3 `28 n:0###` (R147). -/
def execSubRwImm3 (n : RegNum) (d : BitVec 3) (s : State) : Host.Outcome State Fault Refusal :=
  seqInstr 2#16 (alu .sub .word (.gpr n) (.imm (zext16 d))) s

/-- SUB Rwn, [Rwi] `28 n:10ii` (R147). -/
def execSubRwInd (n : RegNum) (i : PtrNum) (s : State) : Host.Outcome State Fault Refusal :=
  seqInstr 2#16 (alu .sub .word (.gpr n) (.loc (.ind (ptrReg i)))) s

/-- SUB Rwn, [Rwi+] `28 n:11ii` (R147). -/
def execSubRwInc (n : RegNum) (i : PtrNum) (s : State) : Host.Outcome State Fault Refusal :=
  seqInstr 2#16 (aluInc .sub .word n (ptrReg i)) s

/-- SUBB Rbn, Rbm `21 nm` (R148). -/
def execSubbRbRb (n : RegNum) (m : RegNum) (s : State) : Host.Outcome State Fault Refusal :=
  seqInstr 2#16 (alu .sub .byte (.gpr n) (.loc (.gpr m))) s

/-- SUBB reg, mem `23 RR MM MM` (R148). -/
def execSubbRegMem (r : ShortReg) (a : Word) (s : State) : Host.Outcome State Fault Refusal :=
  seqInstr 4#16 (alu .sub .byte (.short r) (.loc (.long a))) s

/-- SUBB mem, reg `25 RR MM MM` (R148). -/
def execSubbMemReg (a : Word) (r : ShortReg) (s : State) : Host.Outcome State Fault Refusal :=
  seqInstr 4#16 (alu .sub .byte (.long a) (.loc (.short r))) s

/-- SUBB reg, #data16 `27 RR ## ##` (R148). -/
def execSubbRegImm (r : ShortReg) (d : Word) (s : State) : Host.Outcome State Fault Refusal :=
  seqInstr 4#16 (alu .sub .byte (.short r) (.imm d)) s

/-- SUBB Rbn, #data3 `29 n:0###` (R148). -/
def execSubbRbImm3 (n : RegNum) (d : BitVec 3) (s : State) : Host.Outcome State Fault Refusal :=
  seqInstr 2#16 (alu .sub .byte (.gpr n) (.imm (zext16 d))) s

/-- SUBB Rbn, [Rwi] `29 n:10ii` (R148). -/
def execSubbRbInd (n : RegNum) (i : PtrNum) (s : State) : Host.Outcome State Fault Refusal :=
  seqInstr 2#16 (alu .sub .byte (.gpr n) (.loc (.ind (ptrReg i)))) s

/-- SUBB Rbn, [Rwi+] `29 n:11ii` (R148). -/
def execSubbRbInc (n : RegNum) (i : PtrNum) (s : State) : Host.Outcome State Fault Refusal :=
  seqInstr 2#16 (aluInc .sub .byte n (ptrReg i)) s

/-- SUBC Rwn, Rwm `30 nm` (R149). -/
def execSubcRwRw (n : RegNum) (m : RegNum) (s : State) : Host.Outcome State Fault Refusal :=
  seqInstr 2#16 (alu .subc .word (.gpr n) (.loc (.gpr m))) s

/-- SUBC reg, mem `32 RR MM MM` (R149). -/
def execSubcRegMem (r : ShortReg) (a : Word) (s : State) : Host.Outcome State Fault Refusal :=
  seqInstr 4#16 (alu .subc .word (.short r) (.loc (.long a))) s

/-- SUBC mem, reg `34 RR MM MM` (R149). -/
def execSubcMemReg (a : Word) (r : ShortReg) (s : State) : Host.Outcome State Fault Refusal :=
  seqInstr 4#16 (alu .subc .word (.long a) (.loc (.short r))) s

/-- SUBC reg, #data16 `36 RR ## ##` (R149). -/
def execSubcRegImm (r : ShortReg) (d : Word) (s : State) : Host.Outcome State Fault Refusal :=
  seqInstr 4#16 (alu .subc .word (.short r) (.imm d)) s

/-- SUBC Rwn, #data3 `38 n:0###` (R149). -/
def execSubcRwImm3 (n : RegNum) (d : BitVec 3) (s : State) : Host.Outcome State Fault Refusal :=
  seqInstr 2#16 (alu .subc .word (.gpr n) (.imm (zext16 d))) s

/-- SUBC Rwn, [Rwi] `38 n:10ii` (R149). -/
def execSubcRwInd (n : RegNum) (i : PtrNum) (s : State) : Host.Outcome State Fault Refusal :=
  seqInstr 2#16 (alu .subc .word (.gpr n) (.loc (.ind (ptrReg i)))) s

/-- SUBC Rwn, [Rwi+] `38 n:11ii` (R149). -/
def execSubcRwInc (n : RegNum) (i : PtrNum) (s : State) : Host.Outcome State Fault Refusal :=
  seqInstr 2#16 (aluInc .subc .word n (ptrReg i)) s

/-- SUBCB Rbn, Rbm `31 nm` (R150). -/
def execSubcbRbRb (n : RegNum) (m : RegNum) (s : State) : Host.Outcome State Fault Refusal :=
  seqInstr 2#16 (alu .subc .byte (.gpr n) (.loc (.gpr m))) s

/-- SUBCB reg, mem `33 RR MM MM` (R150). -/
def execSubcbRegMem (r : ShortReg) (a : Word) (s : State) : Host.Outcome State Fault Refusal :=
  seqInstr 4#16 (alu .subc .byte (.short r) (.loc (.long a))) s

/-- SUBCB mem, reg `35 RR MM MM` (R150). -/
def execSubcbMemReg (a : Word) (r : ShortReg) (s : State) : Host.Outcome State Fault Refusal :=
  seqInstr 4#16 (alu .subc .byte (.long a) (.loc (.short r))) s

/-- SUBCB reg, #data16 `37 RR ## ##` (R150). -/
def execSubcbRegImm (r : ShortReg) (d : Word) (s : State) : Host.Outcome State Fault Refusal :=
  seqInstr 4#16 (alu .subc .byte (.short r) (.imm d)) s

/-- SUBCB Rbn, #data3 `39 n:0###` (R150). -/
def execSubcbRbImm3 (n : RegNum) (d : BitVec 3) (s : State) : Host.Outcome State Fault Refusal :=
  seqInstr 2#16 (alu .subc .byte (.gpr n) (.imm (zext16 d))) s

/-- SUBCB Rbn, [Rwi] `39 n:10ii` (R150). -/
def execSubcbRbInd (n : RegNum) (i : PtrNum) (s : State) : Host.Outcome State Fault Refusal :=
  seqInstr 2#16 (alu .subc .byte (.gpr n) (.loc (.ind (ptrReg i)))) s

/-- SUBCB Rbn, [Rwi+] `39 n:11ii` (R150). -/
def execSubcbRbInc (n : RegNum) (i : PtrNum) (s : State) : Host.Outcome State Fault Refusal :=
  seqInstr 2#16 (aluInc .subc .byte n (ptrReg i)) s

/-- MUL Rwn, Rwm `0B nm` (R155). -/
def execMul (n : RegNum) (m : RegNum) (s : State) : Host.Outcome State Fault Refusal :=
  seqInstr 2#16 (multiply true n m) s

/-- MULU Rwn, Rwm `1B nm` (R156). -/
def execMulu (n : RegNum) (m : RegNum) (s : State) : Host.Outcome State Fault Refusal :=
  seqInstr 2#16 (multiply false n m) s

/-- DIV Rwn `4B nn` (R157). -/
def execDiv (n : RegNum) (s : State) : Host.Outcome State Fault Refusal :=
  seqInstr 2#16 (divide .div n) s

/-- DIVU Rwn `5B nn` (R160). -/
def execDivu (n : RegNum) (s : State) : Host.Outcome State Fault Refusal :=
  seqInstr 2#16 (divide .divu n) s

/-- DIVL Rwn `6B nn` (R158). -/
def execDivl (n : RegNum) (s : State) : Host.Outcome State Fault Refusal :=
  seqInstr 2#16 (divide .divl n) s

/-- DIVLU Rwn `7B nn` (R159). -/
def execDivlu (n : RegNum) (s : State) : Host.Outcome State Fault Refusal :=
  seqInstr 2#16 (divide .divlu n) s

/-- NEG Rwn `81 n0` (R153). -/
def execNeg (n : RegNum) (s : State) : Host.Outcome State Fault Refusal :=
  seqInstr 2#16 (negate .word n) s

/-- CPL Rwn `91 n0` (R151). -/
def execCpl (n : RegNum) (s : State) : Host.Outcome State Fault Refusal :=
  seqInstr 2#16 (complement .word n) s

/-- NEGB Rbn `A1 n0` (R154). -/
def execNegb (n : RegNum) (s : State) : Host.Outcome State Fault Refusal :=
  seqInstr 2#16 (negate .byte n) s

/-- CPLB Rbn `B1 n0` (R152). -/
def execCplb (n : RegNum) (s : State) : Host.Outcome State Fault Refusal :=
  seqInstr 2#16 (complement .byte n) s

end Sys2Proof.Machine
end

