-- ==== Sys2Proof/Machine/Bits.lean ====
section
/-!
DEFINITION. Bit instructions (42_boolean_bit.md): BCLR, BSET, BMOV, BMOVN, BAND, BOR, BXOR, BCMP, BFLDL, BFLDH.
-/

namespace Sys2Proof.Machine

/-- The two-bit operations. -/
inductive BitOp where
  | and | or | xor
  deriving DecidableEq, Repr

/-- The result of a two-bit operation (42_boolean_bit.md R191, R198, R200). -/
def bitResult (op : BitOp) (d s : Bool) : Bool :=
  match op with
  | .and => d && s
  | .or => d || s
  | .xor => d ^^ s

/-- BCLR and BSET: flags from the old bit, unless the word is the PSW (42_boolean_bit.md R192, R199, R202). -/
def bitPut (v : Bool) (qq : BitOff) (q : BitPos) (nx : Word) (s : State) : Res Unit :=
  (bitWordAddr qq s).bind fun a s =>
  (memRead .word a s).bind fun w s =>
  (memWrite .word nx a (setBit w q v) s).bind fun _ s =>
  .ok () (setFlagsFor a (bitFlags (w.getLsbD q.toNat)) s)

/-- BMOV and BMOVN: the source bit or its complement is written; flags from the source bit (42_boolean_bit.md R196,
R197). -/
def bitMove (negated : Bool) (zz : BitOff) (z : BitPos) (qq : BitOff) (q : BitPos) (nx : Word) (s : State) : Res Unit :=
  (readBit qq q s).bind fun b s =>
  (bitWordAddr zz s).bind fun a s =>
  (memRead .word a s).bind fun w s =>
  (memWrite .word nx a (setBit w z (b ^^ negated)) s).bind fun _ s =>
  .ok () (setFlagsFor a (bitFlags b) s)

/-- BAND, BOR, BXOR; the destination word is read once, as in the read-modify-write of R190 (42_boolean_bit.md R191, R198,
R200). DESIGN CHOICE: notes/assumptions/34.md. -/
def bitLogic (op : BitOp) (zz : BitOff) (z : BitPos) (qq : BitOff) (q : BitPos) (nx : Word) (s : State) : Res Unit :=
  (readBit qq q s).bind fun b s =>
  (bitWordAddr zz s).bind fun a s =>
  (memRead .word a s).bind fun w s =>
  (memWrite .word nx a (setBit w z (bitResult op (w.getLsbD z.toNat) b)) s).bind fun _ s =>
  .ok () (setFlagsFor a (twoBitFlags (w.getLsbD z.toNat) b) s)

/-- BCMP: flags of the two bits, nothing written (42_boolean_bit.md R193). -/
def bitCompare (zz : BitOff) (z : BitPos) (qq : BitOff) (q : BitPos) (_nx : Word) (s : State) : Res Unit :=
  (readBit qq q s).bind fun b s =>
  (readBit zz z s).bind fun d s =>
  .ok () (setFlags (twoBitFlags d b) s)

/-- Which byte of the word a bit-field instruction changes. -/
inductive Half where
  | low
  | high
  deriving DecidableEq, Repr

/-- The word a bit-field instruction writes: the masked byte cleared, then the data ORed in whole (42_boolean_bit.md
R194, R195). -/
def fieldResult (h : Half) (mask d : Byte) (w : Word) : Word :=
  match h with
  | .low => joinBytes (hiByte w) (loByte w &&& ~~~mask ||| d)
  | .high => joinBytes (hiByte w &&& ~~~mask ||| d) (loByte w)

/-- BFLDL and BFLDH (42_boolean_bit.md R194, R195). -/
def bitField (h : Half) (qq : BitOff) (mask d : Byte) (nx : Word) (s : State) : Res Unit :=
  (bitWordAddr qq s).bind fun a s =>
  (memRead .word a s).bind fun w s =>
  (memWrite .word nx a (fieldResult h mask d w) s).bind fun _ s =>
  .ok () (setFlagsFor a (fieldFlags (fieldResult h mask d w)) s)

/-- BFLDL bitoffQ, #mask8, #data8 `0A QQ @@ ##` (R195). -/
def execBfldl (q : BitOff) (mask : Byte) (d : Byte) (s : State) : Host.Outcome State Fault Refusal :=
  seqInstr 4#16 (bitField .low q mask d) s

/-- BFLDH bitoffQ, #mask8, #data8 `1A QQ ## @@` (R194). -/
def execBfldh (q : BitOff) (mask : Byte) (d : Byte) (s : State) : Host.Outcome State Fault Refusal :=
  seqInstr 4#16 (bitField .high q mask d) s

/-- BCMP bitaddrZ.z, bitaddrQ.q `2A QQ ZZ qz` (R193). -/
def execBcmp (zz : BitOff) (z : BitPos) (qq : BitOff) (q : BitPos) (s : State) : Host.Outcome State Fault Refusal :=
  seqInstr 4#16 (bitCompare zz z qq q) s

/-- BMOVN bitaddrZ.z, bitaddrQ.q `3A QQ ZZ qz` (R197). -/
def execBmovn (zz : BitOff) (z : BitPos) (qq : BitOff) (q : BitPos) (s : State) : Host.Outcome State Fault Refusal :=
  seqInstr 4#16 (bitMove true zz z qq q) s

/-- BMOV bitaddrZ.z, bitaddrQ.q `4A QQ ZZ qz` (R196). -/
def execBmov (zz : BitOff) (z : BitPos) (qq : BitOff) (q : BitPos) (s : State) : Host.Outcome State Fault Refusal :=
  seqInstr 4#16 (bitMove false zz z qq q) s

/-- BOR bitaddrZ.z, bitaddrQ.q `5A QQ ZZ qz` (R198). -/
def execBor (zz : BitOff) (z : BitPos) (qq : BitOff) (q : BitPos) (s : State) : Host.Outcome State Fault Refusal :=
  seqInstr 4#16 (bitLogic .or zz z qq q) s

/-- BAND bitaddrZ.z, bitaddrQ.q `6A QQ ZZ qz` (R191). -/
def execBand (zz : BitOff) (z : BitPos) (qq : BitOff) (q : BitPos) (s : State) : Host.Outcome State Fault Refusal :=
  seqInstr 4#16 (bitLogic .and zz z qq q) s

/-- BXOR bitaddrZ.z, bitaddrQ.q `7A QQ ZZ qz` (R200). -/
def execBxor (zz : BitOff) (z : BitPos) (qq : BitOff) (q : BitPos) (s : State) : Host.Outcome State Fault Refusal :=
  seqInstr 4#16 (bitLogic .xor zz z qq q) s

/-- BCLR bitaddrQ.q `qE QQ` (R192). -/
def execBclr (qq : BitOff) (q : BitPos) (s : State) : Host.Outcome State Fault Refusal :=
  seqInstr 2#16 (bitPut false qq q) s

/-- BSET bitaddrQ.q `qF QQ` (R199). -/
def execBset (qq : BitOff) (q : BitPos) (s : State) : Host.Outcome State Fault Refusal :=
  seqInstr 2#16 (bitPut true qq q) s

end Sys2Proof.Machine
end

