-- ==== Sys2Proof/Machine/Compare.lean ====
section
/-!
DEFINITION. Compare and loop control instructions (43_compare_loop.md): CMP, CMPB, CMPI1, CMPI2, CMPD1, CMPD2.
-/

namespace Sys2Proof.Machine

/-- CMP and CMPB: the flags of op1 - op2; nothing is written, so the PSW exception does not apply
(43_compare_loop.md R210, R211). -/
def compare (w : Width) (dst : Loc) (src : Src) (_nx : Word) (s : State) : Res Unit :=
  (readSrc w src s).bind fun b s =>
  (readLoc w dst s).bind fun a s =>
  .ok () (setFlags (subFlags a b false true) s)

/-- The `[Rwi+]` form of CMP: the flags, then the incremented pointer (43_compare_loop.md R210, R211). Refused when the
pointer is the other operand (20_memory.md R71). -/
def compareInc (w : Width) (n k : RegNum) (nx : Word) (s : State) : Res Unit :=
  if clashes w n k then .refused .sameRegister else
  (readPostInc w k s).bind fun b s =>
  (readGpr w n s).bind fun a s =>
  writeGpr .word nx k b.next (setFlags (subFlags a b.value false true) s)

/-- CMPI1, CMPI2, CMPD1, CMPD2: compare first, then add the step to the register (43_compare_loop.md R213 to R216); the
flags are skipped when the register is the PSW (10_state.md R31). -/
def compareStep (step : Word) (n : RegNum) (src : Src) (nx : Word) (s : State) : Res Unit :=
  (readSrc .word src s).bind fun b s =>
  (gprAddr .word n s).bind fun d s =>
  (memRead .word d s).bind fun a s =>
  memWrite .word nx d (a + step) (setFlagsFor d (subFlags a b false true) s)

/-- CMP Rwn, Rwm `40 nm` (R211). -/
def execCmpRwRw (n : RegNum) (m : RegNum) (s : State) : Host.Outcome State Fault Refusal :=
  seqInstr 2#16 (compare .word (.gpr n) (.loc (.gpr m))) s

/-- CMP reg, mem `42 RR MM MM` (R211). -/
def execCmpRegMem (r : ShortReg) (a : Word) (s : State) : Host.Outcome State Fault Refusal :=
  seqInstr 4#16 (compare .word (.short r) (.loc (.long a))) s

/-- CMP reg, #data16 `46 RR ## ##` (R211). -/
def execCmpRegImm (r : ShortReg) (d : Word) (s : State) : Host.Outcome State Fault Refusal :=
  seqInstr 4#16 (compare .word (.short r) (.imm d)) s

/-- CMP Rwn, #data3 `48 n:0###` (R211). -/
def execCmpRwImm3 (n : RegNum) (d : BitVec 3) (s : State) : Host.Outcome State Fault Refusal :=
  seqInstr 2#16 (compare .word (.gpr n) (.imm (zext16 d))) s

/-- CMP Rwn, [Rwi] `48 n:10ii` (R211). -/
def execCmpRwInd (n : RegNum) (i : PtrNum) (s : State) : Host.Outcome State Fault Refusal :=
  seqInstr 2#16 (compare .word (.gpr n) (.loc (.ind (ptrReg i)))) s

/-- CMP Rwn, [Rwi+] `48 n:11ii` (R211). -/
def execCmpRwInc (n : RegNum) (i : PtrNum) (s : State) : Host.Outcome State Fault Refusal :=
  seqInstr 2#16 (compareInc .word n (ptrReg i)) s

/-- CMPB Rbn, Rbm `41 nm` (R212). -/
def execCmpbRbRb (n : RegNum) (m : RegNum) (s : State) : Host.Outcome State Fault Refusal :=
  seqInstr 2#16 (compare .byte (.gpr n) (.loc (.gpr m))) s

/-- CMPB reg, mem `43 RR MM MM` (R212). -/
def execCmpbRegMem (r : ShortReg) (a : Word) (s : State) : Host.Outcome State Fault Refusal :=
  seqInstr 4#16 (compare .byte (.short r) (.loc (.long a))) s

/-- CMPB reg, #data16 `47 RR ## ##` (R212). -/
def execCmpbRegImm (r : ShortReg) (d : Word) (s : State) : Host.Outcome State Fault Refusal :=
  seqInstr 4#16 (compare .byte (.short r) (.imm d)) s

/-- CMPB Rbn, #data3 `49 n:0###` (R212). -/
def execCmpbRbImm3 (n : RegNum) (d : BitVec 3) (s : State) : Host.Outcome State Fault Refusal :=
  seqInstr 2#16 (compare .byte (.gpr n) (.imm (zext16 d))) s

/-- CMPB Rbn, [Rwi] `49 n:10ii` (R212). -/
def execCmpbRbInd (n : RegNum) (i : PtrNum) (s : State) : Host.Outcome State Fault Refusal :=
  seqInstr 2#16 (compare .byte (.gpr n) (.loc (.ind (ptrReg i)))) s

/-- CMPB Rbn, [Rwi+] `49 n:11ii` (R212). -/
def execCmpbRbInc (n : RegNum) (i : PtrNum) (s : State) : Host.Outcome State Fault Refusal :=
  seqInstr 2#16 (compareInc .byte n (ptrReg i)) s

/-- CMPI1 Rwn, #data4 `80 #n` (R215). -/
def execCmpi1RwImm4 (n : RegNum) (d : BitVec 4) (s : State) : Host.Outcome State Fault Refusal :=
  seqInstr 2#16 (compareStep 1#16 n (.imm (zext16 d))) s

/-- CMPI1 Rwn, mem `82 Fn MM MM` (R215). -/
def execCmpi1RwMem (n : RegNum) (a : Word) (s : State) : Host.Outcome State Fault Refusal :=
  seqInstr 4#16 (compareStep 1#16 n (.loc (.long a))) s

/-- CMPI1 Rwn, #data16 `86 Fn ## ##` (R215). -/
def execCmpi1RwImm16 (n : RegNum) (d : Word) (s : State) : Host.Outcome State Fault Refusal :=
  seqInstr 4#16 (compareStep 1#16 n (.imm d)) s

/-- CMPI2 Rwn, #data4 `90 #n` (R216). -/
def execCmpi2RwImm4 (n : RegNum) (d : BitVec 4) (s : State) : Host.Outcome State Fault Refusal :=
  seqInstr 2#16 (compareStep 2#16 n (.imm (zext16 d))) s

/-- CMPI2 Rwn, mem `92 Fn MM MM` (R216). -/
def execCmpi2RwMem (n : RegNum) (a : Word) (s : State) : Host.Outcome State Fault Refusal :=
  seqInstr 4#16 (compareStep 2#16 n (.loc (.long a))) s

/-- CMPI2 Rwn, #data16 `96 Fn ## ##` (R216). -/
def execCmpi2RwImm16 (n : RegNum) (d : Word) (s : State) : Host.Outcome State Fault Refusal :=
  seqInstr 4#16 (compareStep 2#16 n (.imm d)) s

/-- CMPD1 Rwn, #data4 `A0 #n` (R213). -/
def execCmpd1RwImm4 (n : RegNum) (d : BitVec 4) (s : State) : Host.Outcome State Fault Refusal :=
  seqInstr 2#16 (compareStep (-1#16) n (.imm (zext16 d))) s

/-- CMPD1 Rwn, mem `A2 Fn MM MM` (R213). -/
def execCmpd1RwMem (n : RegNum) (a : Word) (s : State) : Host.Outcome State Fault Refusal :=
  seqInstr 4#16 (compareStep (-1#16) n (.loc (.long a))) s

/-- CMPD1 Rwn, #data16 `A6 Fn ## ##` (R213). -/
def execCmpd1RwImm16 (n : RegNum) (d : Word) (s : State) : Host.Outcome State Fault Refusal :=
  seqInstr 4#16 (compareStep (-1#16) n (.imm d)) s

/-- CMPD2 Rwn, #data4 `B0 #n` (R214). -/
def execCmpd2RwImm4 (n : RegNum) (d : BitVec 4) (s : State) : Host.Outcome State Fault Refusal :=
  seqInstr 2#16 (compareStep (-2#16) n (.imm (zext16 d))) s

/-- CMPD2 Rwn, mem `B2 Fn MM MM` (R214). -/
def execCmpd2RwMem (n : RegNum) (a : Word) (s : State) : Host.Outcome State Fault Refusal :=
  seqInstr 4#16 (compareStep (-2#16) n (.loc (.long a))) s

/-- CMPD2 Rwn, #data16 `B6 Fn ## ##` (R214). -/
def execCmpd2RwImm16 (n : RegNum) (d : Word) (s : State) : Host.Outcome State Fault Refusal :=
  seqInstr 4#16 (compareStep (-2#16) n (.imm d)) s

end Sys2Proof.Machine
end

