-- ==== Sys2Proof/Machine/Jump.lean ====
section
/-!
DEFINITION. Jump and call instructions (46_jump_call.md): the targets of R270 to R272, JMPA, JMPI, JMPR, JMPS, JB, JNB,
JBC, JNBS, CALLA, CALLI, CALLR, CALLS, PCALL, TRAP. A body answers the next IP; an odd one traps at the next fetch
(60_exceptions.md R356).
-/

namespace Sys2Proof.Machine

/-- IPnext + 2 * sext(rel), modulo 2^16 (46_jump_call.md R271). -/
def relTarget (nx : Word) (rel : Rel) : Word := nx + 2#16 * rel.signExtend 16

/-- JMPR (46_jump_call.md R281). -/
def jumpRel (cc : Cond) (rel : Rel) (nx : Word) (s : State) : Res Word :=
  .ok (if condHolds cc s.flags then relTarget nx rel else nx) s

/-- JMPA (46_jump_call.md R279). -/
def jumpAbs (cc : Cond) (a : Word) (nx : Word) (s : State) : Res Word :=
  .ok (if condHolds cc s.flags then a else nx) s

/-- JMPI: the GPR is the new IP, read only when the condition holds (46_jump_call.md R280). -/
def jumpInd (cc : Cond) (n : RegNum) (nx : Word) (s : State) : Res Word :=
  if condHolds cc s.flags then readGpr .word n s else .ok nx s

/-- JMPS (46_jump_call.md R282). -/
def jumpSeg (seg : SegNum) (a : Word) (_nx : Word) (s : State) : Res Word := .ok a { s with csp := seg }

/-- JB and JNB: taken when the bit has the value tested (46_jump_call.md R277, R283). -/
def jumpBit (tested : Bool) (qq : BitOff) (q : BitPos) (rel : Rel) (nx : Word) (s : State) : Res Word :=
  (readBit qq q s).bind fun b s => .ok (if b = tested then relTarget nx rel else nx) s

/-- JBC and JNBS: when the bit has the value tested it is complemented and the jump taken; the flags describe the old
bit, and are skipped when the bit written lies in the PSW (46_jump_call.md R278, R284). -/
def jumpBitModify (tested : Bool) (qq : BitOff) (q : BitPos) (rel : Rel) (nx : Word) (s : State) : Res Word :=
  (bitWordAddr qq s).bind fun a s =>
  (memRead .word a s).bind fun w s =>
  if w.getLsbD q.toNat = tested then
    (memWrite .word nx a (setBit w q !tested) (setFlagsFor a (bitFlags tested) s)).bind fun _ s =>
    .ok (relTarget nx rel) s
  else .ok nx (setFlags (bitFlags !tested) s)

/-- CALLA (46_jump_call.md R273). -/
def callAbs (cc : Cond) (a : Word) (nx : Word) (s : State) : Res Word :=
  if condHolds cc s.flags then (push nx nx s).bind fun _ s => .ok a s else .ok nx s

/-- CALLI: the target is read before the push (46_jump_call.md R274). -/
def callInd (cc : Cond) (n : RegNum) (nx : Word) (s : State) : Res Word :=
  if condHolds cc s.flags then
    (readGpr .word n s).bind fun t s => (push nx nx s).bind fun _ s => .ok t s
  else .ok nx s

/-- CALLR (46_jump_call.md R275). -/
def callRel (rel : Rel) (nx : Word) (s : State) : Res Word :=
  (push nx nx s).bind fun _ s => .ok (relTarget nx rel) s

/-- CALLS: CSP is pushed first, IP second (46_jump_call.md R276). -/
def callSeg (seg : SegNum) (a : Word) (nx : Word) (s : State) : Res Word :=
  (push nx (zext16 s.csp) s).bind fun _ s =>
  (push nx nx s).bind fun _ s =>
  .ok a { s with csp := seg }

/-- PCALL: the register is pushed, then the return address; flags of the value pushed (46_jump_call.md R285). -/
def callPush (r : ShortReg) (a : Word) (nx : Word) (s : State) : Res Word :=
  (readLoc .word (.short r) s).bind fun t s =>
  (push nx t s).bind fun _ s =>
  (push nx nx s).bind fun _ s =>
  .ok a (setFlags (moveFlags s.flags t) s)

/-- TRAP: PSW is pushed; if SGTDIS is then 0, CSP is pushed and becomes 0; IP is pushed and becomes the vector; ILVL and TFR
are unchanged (46_jump_call.md R286, 60_exceptions.md R363). No store reads or writes CSP, so that it is cleared after the
last push shows nowhere, and the prefetch window of that push is that of the segment the instruction was fetched from
(20_memory.md R91). Refused right after a write of SYSCON (70_reset_and_hazards.md R404). -/
def softwareTrap (t : TrapNum) (nx : Word) (s : State) : Res Word :=
  if s.hazIn.syscon then .refused .hazardSyscon else
  (push nx s.psw s).bind fun _ s1 =>
  (if sgtdis s1 then .ok () s1 else push nx (zext16 s1.csp) s1).bind fun _ s2 =>
  (push nx nx s2).bind fun _ s3 =>
  .ok (4#16 * zext16 t)
    { s3 with csp := if sgtdis s1 then s3.csp else 0#8, frames := .software :: s3.frames }

/-- JB bitaddrQ.q, rel `8A QQ rr q0` (R277). -/
def execJb (qq : BitOff) (q : BitPos) (rel : Rel) (s : State) : Host.Outcome State Fault Refusal :=
  runInstr 4#16 (jumpBit true qq q rel) s

/-- JNB bitaddrQ.q, rel `9A QQ rr q0` (R283). -/
def execJnb (qq : BitOff) (q : BitPos) (rel : Rel) (s : State) : Host.Outcome State Fault Refusal :=
  runInstr 4#16 (jumpBit false qq q rel) s

/-- JBC bitaddrQ.q, rel `AA QQ rr q0` (R278). -/
def execJbc (qq : BitOff) (q : BitPos) (rel : Rel) (s : State) : Host.Outcome State Fault Refusal :=
  runInstr 4#16 (jumpBitModify true qq q rel) s

/-- JNBS bitaddrQ.q, rel `BA QQ rr q0` (R284). -/
def execJnbs (qq : BitOff) (q : BitPos) (rel : Rel) (s : State) : Host.Outcome State Fault Refusal :=
  runInstr 4#16 (jumpBitModify false qq q rel) s

/-- CALLA cc, caddr `CA c0 MM MM` (R273). -/
def execCalla (cc : Cond) (a : Word) (s : State) : Host.Outcome State Fault Refusal :=
  runInstr 4#16 (callAbs cc a) s

/-- CALLS seg, caddr `DA ss MM MM` (R276). -/
def execCalls (seg : SegNum) (a : Word) (s : State) : Host.Outcome State Fault Refusal :=
  runInstr 4#16 (callSeg seg a) s

/-- JMPA cc, caddr `EA c0 MM MM` (R279). -/
def execJmpa (cc : Cond) (a : Word) (s : State) : Host.Outcome State Fault Refusal :=
  runInstr 4#16 (jumpAbs cc a) s

/-- JMPS seg, caddr `FA ss MM MM` (R282). -/
def execJmps (seg : SegNum) (a : Word) (s : State) : Host.Outcome State Fault Refusal :=
  runInstr 4#16 (jumpSeg seg a) s

/-- TRAP #trap7 `9B t:ttt0` (R286). -/
def execTrap (t : TrapNum) (s : State) : Host.Outcome State Fault Refusal :=
  runInstr 2#16 (softwareTrap t) s

/-- CALLI cc, [Rwn] `AB cn` (R274). -/
def execCalli (cc : Cond) (n : RegNum) (s : State) : Host.Outcome State Fault Refusal :=
  runInstr 2#16 (callInd cc n) s

/-- CALLR rel `BB rr` (R275). -/
def execCallr (rel : Rel) (s : State) : Host.Outcome State Fault Refusal :=
  runInstr 2#16 (callRel rel) s

/-- JMPI cc, [Rwn] `9C cn` (R280). -/
def execJmpi (cc : Cond) (n : RegNum) (s : State) : Host.Outcome State Fault Refusal :=
  runInstr 2#16 (jumpInd cc n) s

/-- JMPR cc, rel `cD rr` (R281). -/
def execJmpr (cc : Cond) (rel : Rel) (s : State) : Host.Outcome State Fault Refusal :=
  runInstr 2#16 (jumpRel cc rel) s

/-- PCALL reg, caddr `E2 RR MM MM` (R285). -/
def execPcall (r : ShortReg) (a : Word) (s : State) : Host.Outcome State Fault Refusal :=
  runInstr 4#16 (callPush r a) s

end Sys2Proof.Machine
end

