-- ==== Sys2Proof/Machine/Logical.lean ====
section
/-!
DEFINITION. Logical instructions (41_logical.md): one meaning per row of AND, OR, XOR and their byte forms, over the
two-operand operation of Arithmetic.lean (R180: the forms are those of 40_arithmetic.md R140).
-/

namespace Sys2Proof.Machine

/-- XOR Rwn, Rwm `50 nm` (R185). -/
def execXorRwRw (n : RegNum) (m : RegNum) (s : State) : Host.Outcome State Fault Refusal :=
  seqInstr 2#16 (alu .xor .word (.gpr n) (.loc (.gpr m))) s

/-- XOR reg, mem `52 RR MM MM` (R185). -/
def execXorRegMem (r : ShortReg) (a : Word) (s : State) : Host.Outcome State Fault Refusal :=
  seqInstr 4#16 (alu .xor .word (.short r) (.loc (.long a))) s

/-- XOR mem, reg `54 RR MM MM` (R185). -/
def execXorMemReg (a : Word) (r : ShortReg) (s : State) : Host.Outcome State Fault Refusal :=
  seqInstr 4#16 (alu .xor .word (.long a) (.loc (.short r))) s

/-- XOR reg, #data16 `56 RR ## ##` (R185). -/
def execXorRegImm (r : ShortReg) (d : Word) (s : State) : Host.Outcome State Fault Refusal :=
  seqInstr 4#16 (alu .xor .word (.short r) (.imm d)) s

/-- XOR Rwn, #data3 `58 n:0###` (R185). -/
def execXorRwImm3 (n : RegNum) (d : BitVec 3) (s : State) : Host.Outcome State Fault Refusal :=
  seqInstr 2#16 (alu .xor .word (.gpr n) (.imm (zext16 d))) s

/-- XOR Rwn, [Rwi] `58 n:10ii` (R185). -/
def execXorRwInd (n : RegNum) (i : PtrNum) (s : State) : Host.Outcome State Fault Refusal :=
  seqInstr 2#16 (alu .xor .word (.gpr n) (.loc (.ind (ptrReg i)))) s

/-- XOR Rwn, [Rwi+] `58 n:11ii` (R185). -/
def execXorRwInc (n : RegNum) (i : PtrNum) (s : State) : Host.Outcome State Fault Refusal :=
  seqInstr 2#16 (aluInc .xor .word n (ptrReg i)) s

/-- XORB Rbn, Rbm `51 nm` (R186). -/
def execXorbRbRb (n : RegNum) (m : RegNum) (s : State) : Host.Outcome State Fault Refusal :=
  seqInstr 2#16 (alu .xor .byte (.gpr n) (.loc (.gpr m))) s

/-- XORB reg, mem `53 RR MM MM` (R186). -/
def execXorbRegMem (r : ShortReg) (a : Word) (s : State) : Host.Outcome State Fault Refusal :=
  seqInstr 4#16 (alu .xor .byte (.short r) (.loc (.long a))) s

/-- XORB mem, reg `55 RR MM MM` (R186). -/
def execXorbMemReg (a : Word) (r : ShortReg) (s : State) : Host.Outcome State Fault Refusal :=
  seqInstr 4#16 (alu .xor .byte (.long a) (.loc (.short r))) s

/-- XORB reg, #data16 `57 RR ## ##` (R186). -/
def execXorbRegImm (r : ShortReg) (d : Word) (s : State) : Host.Outcome State Fault Refusal :=
  seqInstr 4#16 (alu .xor .byte (.short r) (.imm d)) s

/-- XORB Rbn, #data3 `59 n:0###` (R186). -/
def execXorbRbImm3 (n : RegNum) (d : BitVec 3) (s : State) : Host.Outcome State Fault Refusal :=
  seqInstr 2#16 (alu .xor .byte (.gpr n) (.imm (zext16 d))) s

/-- XORB Rbn, [Rwi] `59 n:10ii` (R186). -/
def execXorbRbInd (n : RegNum) (i : PtrNum) (s : State) : Host.Outcome State Fault Refusal :=
  seqInstr 2#16 (alu .xor .byte (.gpr n) (.loc (.ind (ptrReg i)))) s

/-- XORB Rbn, [Rwi+] `59 n:11ii` (R186). -/
def execXorbRbInc (n : RegNum) (i : PtrNum) (s : State) : Host.Outcome State Fault Refusal :=
  seqInstr 2#16 (aluInc .xor .byte n (ptrReg i)) s

/-- AND Rwn, Rwm `60 nm` (R181). -/
def execAndRwRw (n : RegNum) (m : RegNum) (s : State) : Host.Outcome State Fault Refusal :=
  seqInstr 2#16 (alu .and .word (.gpr n) (.loc (.gpr m))) s

/-- AND reg, mem `62 RR MM MM` (R181). -/
def execAndRegMem (r : ShortReg) (a : Word) (s : State) : Host.Outcome State Fault Refusal :=
  seqInstr 4#16 (alu .and .word (.short r) (.loc (.long a))) s

/-- AND mem, reg `64 RR MM MM` (R181). -/
def execAndMemReg (a : Word) (r : ShortReg) (s : State) : Host.Outcome State Fault Refusal :=
  seqInstr 4#16 (alu .and .word (.long a) (.loc (.short r))) s

/-- AND reg, #data16 `66 RR ## ##` (R181). -/
def execAndRegImm (r : ShortReg) (d : Word) (s : State) : Host.Outcome State Fault Refusal :=
  seqInstr 4#16 (alu .and .word (.short r) (.imm d)) s

/-- AND Rwn, #data3 `68 n:0###` (R181). -/
def execAndRwImm3 (n : RegNum) (d : BitVec 3) (s : State) : Host.Outcome State Fault Refusal :=
  seqInstr 2#16 (alu .and .word (.gpr n) (.imm (zext16 d))) s

/-- AND Rwn, [Rwi] `68 n:10ii` (R181). -/
def execAndRwInd (n : RegNum) (i : PtrNum) (s : State) : Host.Outcome State Fault Refusal :=
  seqInstr 2#16 (alu .and .word (.gpr n) (.loc (.ind (ptrReg i)))) s

/-- AND Rwn, [Rwi+] `68 n:11ii` (R181). -/
def execAndRwInc (n : RegNum) (i : PtrNum) (s : State) : Host.Outcome State Fault Refusal :=
  seqInstr 2#16 (aluInc .and .word n (ptrReg i)) s

/-- ANDB Rbn, Rbm `61 nm` (R182). -/
def execAndbRbRb (n : RegNum) (m : RegNum) (s : State) : Host.Outcome State Fault Refusal :=
  seqInstr 2#16 (alu .and .byte (.gpr n) (.loc (.gpr m))) s

/-- ANDB reg, mem `63 RR MM MM` (R182). -/
def execAndbRegMem (r : ShortReg) (a : Word) (s : State) : Host.Outcome State Fault Refusal :=
  seqInstr 4#16 (alu .and .byte (.short r) (.loc (.long a))) s

/-- ANDB mem, reg `65 RR MM MM` (R182). -/
def execAndbMemReg (a : Word) (r : ShortReg) (s : State) : Host.Outcome State Fault Refusal :=
  seqInstr 4#16 (alu .and .byte (.long a) (.loc (.short r))) s

/-- ANDB reg, #data16 `67 RR ## ##` (R182). -/
def execAndbRegImm (r : ShortReg) (d : Word) (s : State) : Host.Outcome State Fault Refusal :=
  seqInstr 4#16 (alu .and .byte (.short r) (.imm d)) s

/-- ANDB Rbn, #data3 `69 n:0###` (R182). -/
def execAndbRbImm3 (n : RegNum) (d : BitVec 3) (s : State) : Host.Outcome State Fault Refusal :=
  seqInstr 2#16 (alu .and .byte (.gpr n) (.imm (zext16 d))) s

/-- ANDB Rbn, [Rwi] `69 n:10ii` (R182). -/
def execAndbRbInd (n : RegNum) (i : PtrNum) (s : State) : Host.Outcome State Fault Refusal :=
  seqInstr 2#16 (alu .and .byte (.gpr n) (.loc (.ind (ptrReg i)))) s

/-- ANDB Rbn, [Rwi+] `69 n:11ii` (R182). -/
def execAndbRbInc (n : RegNum) (i : PtrNum) (s : State) : Host.Outcome State Fault Refusal :=
  seqInstr 2#16 (aluInc .and .byte n (ptrReg i)) s

/-- OR Rwn, Rwm `70 nm` (R183). -/
def execOrRwRw (n : RegNum) (m : RegNum) (s : State) : Host.Outcome State Fault Refusal :=
  seqInstr 2#16 (alu .or .word (.gpr n) (.loc (.gpr m))) s

/-- OR reg, mem `72 RR MM MM` (R183). -/
def execOrRegMem (r : ShortReg) (a : Word) (s : State) : Host.Outcome State Fault Refusal :=
  seqInstr 4#16 (alu .or .word (.short r) (.loc (.long a))) s

/-- OR mem, reg `74 RR MM MM` (R183). -/
def execOrMemReg (a : Word) (r : ShortReg) (s : State) : Host.Outcome State Fault Refusal :=
  seqInstr 4#16 (alu .or .word (.long a) (.loc (.short r))) s

/-- OR reg, #data16 `76 RR ## ##` (R183). -/
def execOrRegImm (r : ShortReg) (d : Word) (s : State) : Host.Outcome State Fault Refusal :=
  seqInstr 4#16 (alu .or .word (.short r) (.imm d)) s

/-- OR Rwn, #data3 `78 n:0###` (R183). -/
def execOrRwImm3 (n : RegNum) (d : BitVec 3) (s : State) : Host.Outcome State Fault Refusal :=
  seqInstr 2#16 (alu .or .word (.gpr n) (.imm (zext16 d))) s

/-- OR Rwn, [Rwi] `78 n:10ii` (R183). -/
def execOrRwInd (n : RegNum) (i : PtrNum) (s : State) : Host.Outcome State Fault Refusal :=
  seqInstr 2#16 (alu .or .word (.gpr n) (.loc (.ind (ptrReg i)))) s

/-- OR Rwn, [Rwi+] `78 n:11ii` (R183). -/
def execOrRwInc (n : RegNum) (i : PtrNum) (s : State) : Host.Outcome State Fault Refusal :=
  seqInstr 2#16 (aluInc .or .word n (ptrReg i)) s

/-- ORB Rbn, Rbm `71 nm` (R184). -/
def execOrbRbRb (n : RegNum) (m : RegNum) (s : State) : Host.Outcome State Fault Refusal :=
  seqInstr 2#16 (alu .or .byte (.gpr n) (.loc (.gpr m))) s

/-- ORB reg, mem `73 RR MM MM` (R184). -/
def execOrbRegMem (r : ShortReg) (a : Word) (s : State) : Host.Outcome State Fault Refusal :=
  seqInstr 4#16 (alu .or .byte (.short r) (.loc (.long a))) s

/-- ORB mem, reg `75 RR MM MM` (R184). -/
def execOrbMemReg (a : Word) (r : ShortReg) (s : State) : Host.Outcome State Fault Refusal :=
  seqInstr 4#16 (alu .or .byte (.long a) (.loc (.short r))) s

/-- ORB reg, #data16 `77 RR ## ##` (R184). -/
def execOrbRegImm (r : ShortReg) (d : Word) (s : State) : Host.Outcome State Fault Refusal :=
  seqInstr 4#16 (alu .or .byte (.short r) (.imm d)) s

/-- ORB Rbn, #data3 `79 n:0###` (R184). -/
def execOrbRbImm3 (n : RegNum) (d : BitVec 3) (s : State) : Host.Outcome State Fault Refusal :=
  seqInstr 2#16 (alu .or .byte (.gpr n) (.imm (zext16 d))) s

/-- ORB Rbn, [Rwi] `79 n:10ii` (R184). -/
def execOrbRbInd (n : RegNum) (i : PtrNum) (s : State) : Host.Outcome State Fault Refusal :=
  seqInstr 2#16 (alu .or .byte (.gpr n) (.loc (.ind (ptrReg i)))) s

/-- ORB Rbn, [Rwi+] `79 n:11ii` (R184). -/
def execOrbRbInc (n : RegNum) (i : PtrNum) (s : State) : Host.Outcome State Fault Refusal :=
  seqInstr 2#16 (aluInc .or .byte n (ptrReg i)) s

end Sys2Proof.Machine
end

