-- ==== Sys2Proof/Machine/Move.lean ====
section
/-!
DEFINITION. Data movement instructions (45_data_movement.md): MOV, MOVB, MOVBS, MOVBZ.
-/

namespace Sys2Proof.Machine

/-- MOV and MOVB without pointer updates: the source is read, the destination address formed, the value written, the
flags set unless the destination is the PSW (45_data_movement.md R230 to R232). -/
def move (w : Width) (dst : Loc) (src : Src) (nx : Word) (s : State) : Res Unit :=
  (readSrc w src s).bind fun v s =>
  (locAddr w dst s).bind fun d s =>
  (storeLoc w dst nx d v s).bind fun _ s =>
  .ok () (setFlagsFor d (moveFlags s.flags v) s)

/-- `Rwn, [Rwm+]`: the pointer is written last (45_data_movement.md R230, R231). Refused when the destination is the
pointer or a half of it. -/
def moveFromInc (w : Width) (n m : RegNum) (nx : Word) (s : State) : Res Unit :=
  if clashes w n m then .refused .sameRegister else
  (readPostInc w m s).bind fun v s =>
  (gprAddr w n s).bind fun d s =>
  (storeLoc w (.gpr n) nx d v.value s).bind fun _ s =>
  writeGpr .word nx m v.next (setFlagsFor d (moveFlags s.flags v.value) s)

/-- `[-Rwm], Rwn`: the source is read, the pointer decremented and written, then the store (45_data_movement.md R230,
R231); a store that traps leaves the pointer decremented. The store goes to the decremented value, which is not read back
from the register (20_memory.md R69). DEDUCED: notes/assumptions/12.md. Refused when the source is the pointer or a half of
it. -/
def moveToDec (w : Width) (m n : RegNum) (nx : Word) (s : State) : Res Unit :=
  if clashes w n m then .refused .sameRegister else
  (readGpr w n s).bind fun v s =>
  (readGpr .word m s).bind fun p s =>
  (writeGpr .word nx m (p - widthStep w) s).bind fun _ s =>
  (dataAddr (p - widthStep w) s).bind fun d s =>
  (memWrite w nx d v s).bind fun _ s =>
  .ok () (setFlagsFor d (moveFlags s.flags v) s)

/-- `[Rwn+], [Rwm]`: the destination pointer is incremented last (45_data_movement.md R231). Refused when n = m. -/
def moveIncInd (w : Width) (n m : RegNum) (nx : Word) (s : State) : Res Unit :=
  if n = m then .refused .sameRegister else
  (readLoc w (.ind m) s).bind fun v s =>
  (readGpr .word n s).bind fun p s =>
  (dataAddr p s).bind fun d s =>
  (memWrite w nx d v s).bind fun _ s =>
  writeGpr .word nx n (p + widthStep w) (setFlagsFor d (moveFlags s.flags v) s)

/-- `[Rwn], [Rwm+]`: the source pointer is incremented last (45_data_movement.md R231). Refused when n = m. -/
def moveIndInc (w : Width) (n m : RegNum) (nx : Word) (s : State) : Res Unit :=
  if n = m then .refused .sameRegister else
  (readPostInc w m s).bind fun v s =>
  (locAddr w (.ind n) s).bind fun d s =>
  (memWrite w nx d v.value s).bind fun _ s =>
  writeGpr .word nx m v.next (setFlagsFor d (moveFlags s.flags v.value) s)

/-- MOVBS and MOVBZ: a byte is read and the extended word written (45_data_movement.md R233, R234). -/
def moveExtend (x : Extend) (dst src : Loc) (nx : Word) (s : State) : Res Unit :=
  (readLoc .byte src s).bind fun v s =>
  (locAddr .word dst s).bind fun d s =>
  (memWrite .word nx d (extendByte x v) s).bind fun _ s =>
  .ok () (setFlagsFor d (extendFlags x s.flags v) s)

/-- MOV [Rwn], mem `84 0n MM MM` (R231). -/
def execMovIndMem (n : RegNum) (a : Word) (s : State) : Host.Outcome State Fault Refusal :=
  seqInstr 4#16 (move .word (.ind n) (.loc (.long a))) s

/-- MOV mem, [Rwn] `94 0n MM MM` (R231). -/
def execMovMemInd (a : Word) (n : RegNum) (s : State) : Host.Outcome State Fault Refusal :=
  seqInstr 4#16 (move .word (.long a) (.loc (.ind n))) s

/-- MOVB [Rwn], mem `A4 0n MM MM` (R232). -/
def execMovbIndMem (n : RegNum) (a : Word) (s : State) : Host.Outcome State Fault Refusal :=
  seqInstr 4#16 (move .byte (.ind n) (.loc (.long a))) s

/-- MOVB mem, [Rwn] `B4 0n MM MM` (R232). -/
def execMovbMemInd (a : Word) (n : RegNum) (s : State) : Host.Outcome State Fault Refusal :=
  seqInstr 4#16 (move .byte (.long a) (.loc (.ind n))) s

/-- MOV Rwn, [Rwm] `A8 nm` (R231). -/
def execMovRwInd (n : RegNum) (m : RegNum) (s : State) : Host.Outcome State Fault Refusal :=
  seqInstr 2#16 (move .word (.gpr n) (.loc (.ind m))) s

/-- MOVB Rbn, [Rwm] `A9 nm` (R232). -/
def execMovbRbInd (n : RegNum) (m : RegNum) (s : State) : Host.Outcome State Fault Refusal :=
  seqInstr 2#16 (move .byte (.gpr n) (.loc (.ind m))) s

/-- MOV Rwn, [Rwm+] `98 nm` (R231). -/
def execMovRwInc (n : RegNum) (m : RegNum) (s : State) : Host.Outcome State Fault Refusal :=
  seqInstr 2#16 (moveFromInc .word n m) s

/-- MOVB Rbn, [Rwm+] `99 nm` (R232). -/
def execMovbRbInc (n : RegNum) (m : RegNum) (s : State) : Host.Outcome State Fault Refusal :=
  seqInstr 2#16 (moveFromInc .byte n m) s

/-- MOV [Rwm], Rwn `B8 nm` (R231). -/
def execMovIndRw (m : RegNum) (n : RegNum) (s : State) : Host.Outcome State Fault Refusal :=
  seqInstr 2#16 (move .word (.ind m) (.loc (.gpr n))) s

/-- MOVB [Rwm], Rbn `B9 nm` (R232). -/
def execMovbIndRb (m : RegNum) (n : RegNum) (s : State) : Host.Outcome State Fault Refusal :=
  seqInstr 2#16 (move .byte (.ind m) (.loc (.gpr n))) s

/-- MOV [-Rwm], Rwn `88 nm` (R231). -/
def execMovDecRw (m : RegNum) (n : RegNum) (s : State) : Host.Outcome State Fault Refusal :=
  seqInstr 2#16 (moveToDec .word m n) s

/-- MOVB [-Rwm], Rbn `89 nm` (R232). -/
def execMovbDecRb (m : RegNum) (n : RegNum) (s : State) : Host.Outcome State Fault Refusal :=
  seqInstr 2#16 (moveToDec .byte m n) s

/-- MOV [Rwn], [Rwm] `C8 nm` (R231). -/
def execMovIndInd (n : RegNum) (m : RegNum) (s : State) : Host.Outcome State Fault Refusal :=
  seqInstr 2#16 (move .word (.ind n) (.loc (.ind m))) s

/-- MOVB [Rwn], [Rwm] `C9 nm` (R232). -/
def execMovbIndInd (n : RegNum) (m : RegNum) (s : State) : Host.Outcome State Fault Refusal :=
  seqInstr 2#16 (move .byte (.ind n) (.loc (.ind m))) s

/-- MOV [Rwn+], [Rwm] `D8 nm` (R231). -/
def execMovIncInd (n : RegNum) (m : RegNum) (s : State) : Host.Outcome State Fault Refusal :=
  seqInstr 2#16 (moveIncInd .word n m) s

/-- MOVB [Rwn+], [Rwm] `D9 nm` (R232). -/
def execMovbIncInd (n : RegNum) (m : RegNum) (s : State) : Host.Outcome State Fault Refusal :=
  seqInstr 2#16 (moveIncInd .byte n m) s

/-- MOV [Rwn], [Rwm+] `E8 nm` (R231). -/
def execMovIndInc (n : RegNum) (m : RegNum) (s : State) : Host.Outcome State Fault Refusal :=
  seqInstr 2#16 (moveIndInc .word n m) s

/-- MOVB [Rwn], [Rwm+] `E9 nm` (R232). -/
def execMovbIndInc (n : RegNum) (m : RegNum) (s : State) : Host.Outcome State Fault Refusal :=
  seqInstr 2#16 (moveIndInc .byte n m) s

/-- MOVBZ Rwn, Rbm `C0 mn` (R234). -/
def execMovbzRwRb (n : RegNum) (m : RegNum) (s : State) : Host.Outcome State Fault Refusal :=
  seqInstr 2#16 (moveExtend .zero (.gpr n) (.gpr m)) s

/-- MOVBZ reg, mem `C2 RR MM MM` (R234). -/
def execMovbzRegMem (r : ShortReg) (a : Word) (s : State) : Host.Outcome State Fault Refusal :=
  seqInstr 4#16 (moveExtend .zero (.short r) (.long a)) s

/-- MOVBZ mem, reg `C5 RR MM MM` (R234). -/
def execMovbzMemReg (a : Word) (r : ShortReg) (s : State) : Host.Outcome State Fault Refusal :=
  seqInstr 4#16 (moveExtend .zero (.long a) (.short r)) s

/-- MOVBS Rwn, Rbm `D0 mn` (R233). -/
def execMovbsRwRb (n : RegNum) (m : RegNum) (s : State) : Host.Outcome State Fault Refusal :=
  seqInstr 2#16 (moveExtend .sign (.gpr n) (.gpr m)) s

/-- MOVBS reg, mem `D2 RR MM MM` (R233). -/
def execMovbsRegMem (r : ShortReg) (a : Word) (s : State) : Host.Outcome State Fault Refusal :=
  seqInstr 4#16 (moveExtend .sign (.short r) (.long a)) s

/-- MOVBS mem, reg `D5 RR MM MM` (R233). -/
def execMovbsMemReg (a : Word) (r : ShortReg) (s : State) : Host.Outcome State Fault Refusal :=
  seqInstr 4#16 (moveExtend .sign (.long a) (.short r)) s

/-- MOV [Rwm+#data16], Rwn `C4 nm ## ##` (R231). -/
def execMovDispRw (m : RegNum) (d : Word) (n : RegNum) (s : State) : Host.Outcome State Fault Refusal :=
  seqInstr 4#16 (move .word (.disp m d) (.loc (.gpr n))) s

/-- MOV Rwn, [Rwm+#data16] `D4 nm ## ##` (R231). -/
def execMovRwDisp (n : RegNum) (m : RegNum) (d : Word) (s : State) : Host.Outcome State Fault Refusal :=
  seqInstr 4#16 (move .word (.gpr n) (.loc (.disp m d))) s

/-- MOVB [Rwm+#data16], Rbn `E4 nm ## ##` (R232). -/
def execMovbDispRb (m : RegNum) (d : Word) (n : RegNum) (s : State) : Host.Outcome State Fault Refusal :=
  seqInstr 4#16 (move .byte (.disp m d) (.loc (.gpr n))) s

/-- MOVB Rbn, [Rwm+#data16] `F4 nm ## ##` (R232). -/
def execMovbRbDisp (n : RegNum) (m : RegNum) (d : Word) (s : State) : Host.Outcome State Fault Refusal :=
  seqInstr 4#16 (move .byte (.gpr n) (.loc (.disp m d))) s

/-- MOV Rwn, #data4 `E0 #n` (R231). -/
def execMovRwImm4 (n : RegNum) (d : BitVec 4) (s : State) : Host.Outcome State Fault Refusal :=
  seqInstr 2#16 (move .word (.gpr n) (.imm (zext16 d))) s

/-- MOVB Rbn, #data4 `E1 #n` (R232). -/
def execMovbRbImm4 (n : RegNum) (d : BitVec 4) (s : State) : Host.Outcome State Fault Refusal :=
  seqInstr 2#16 (move .byte (.gpr n) (.imm (zext16 d))) s

/-- MOV reg, #data16 `E6 RR ## ##` (R231). -/
def execMovRegImm (r : ShortReg) (d : Word) (s : State) : Host.Outcome State Fault Refusal :=
  seqInstr 4#16 (move .word (.short r) (.imm d)) s

/-- MOVB reg, #data16 `E7 RR ## ##` (R232). -/
def execMovbRegImm (r : ShortReg) (d : Word) (s : State) : Host.Outcome State Fault Refusal :=
  seqInstr 4#16 (move .byte (.short r) (.imm d)) s

/-- MOV Rwn, Rwm `F0 nm` (R231). -/
def execMovRwRw (n : RegNum) (m : RegNum) (s : State) : Host.Outcome State Fault Refusal :=
  seqInstr 2#16 (move .word (.gpr n) (.loc (.gpr m))) s

/-- MOVB Rbn, Rbm `F1 nm` (R232). -/
def execMovbRbRb (n : RegNum) (m : RegNum) (s : State) : Host.Outcome State Fault Refusal :=
  seqInstr 2#16 (move .byte (.gpr n) (.loc (.gpr m))) s

/-- MOV reg, mem `F2 RR MM MM` (R231). -/
def execMovRegMem (r : ShortReg) (a : Word) (s : State) : Host.Outcome State Fault Refusal :=
  seqInstr 4#16 (move .word (.short r) (.loc (.long a))) s

/-- MOVB reg, mem `F3 RR MM MM` (R232). -/
def execMovbRegMem (r : ShortReg) (a : Word) (s : State) : Host.Outcome State Fault Refusal :=
  seqInstr 4#16 (move .byte (.short r) (.loc (.long a))) s

/-- MOV mem, reg `F6 RR MM MM` (R231). -/
def execMovMemReg (a : Word) (r : ShortReg) (s : State) : Host.Outcome State Fault Refusal :=
  seqInstr 4#16 (move .word (.long a) (.loc (.short r))) s

/-- MOVB mem, reg `F7 RR MM MM` (R232). -/
def execMovbMemReg (a : Word) (r : ShortReg) (s : State) : Host.Outcome State Fault Refusal :=
  seqInstr 4#16 (move .byte (.long a) (.loc (.short r))) s

end Sys2Proof.Machine
end

