-- ==== Sys2Proof/Machine/Shift.lean ====
section
/-!
DEFINITION. Prioritize, shift and rotate instructions (44_prioritize_shift.md).
-/

namespace Sys2Proof.Machine

/-- The shift of register n by a count of 0 to 15 (44_prioritize_shift.md R220, R222 to R226). -/
def shiftBy (kind : ShiftKind) (n : RegNum) (c : BitVec 4) (nx : Word) (s : State) : Res Unit :=
  (gprAddr .word n s).bind fun d s =>
  (memRead .word d s).bind fun a s =>
  (memWrite .word nx d (shiftResult kind a c.toNat) s).bind fun _ s =>
  .ok () (setFlagsFor d (shiftFlags kind a c.toNat) s)

/-- The register form: the count is the low four bits of Rwm, read before the result is written
(44_prioritize_shift.md R220). -/
def shiftReg (kind : ShiftKind) (n m : RegNum) (nx : Word) (s : State) : Res Unit :=
  (readGpr .word m s).bind fun c s => shiftBy kind n (c.extractLsb' 0 4) nx s

/-- The immediate form (44_prioritize_shift.md R220). -/
def shiftImm (kind : ShiftKind) (n : RegNum) (d : BitVec 4) (nx : Word) (s : State) : Res Unit := shiftBy kind n d nx s

/-- PRIOR (44_prioritize_shift.md R221). -/
def prioritize (n m : RegNum) (nx : Word) (s : State) : Res Unit :=
  (readGpr .word m s).bind fun x s =>
  (gprAddr .word n s).bind fun d s =>
  (memWrite .word nx d (priorCount x) s).bind fun _ s =>
  .ok () (setFlagsFor d (priorFlags x) s)

/-- PRIOR Rwn, Rwm `2B nm` (R221). -/
def execPrior (n : RegNum) (m : RegNum) (s : State) : Host.Outcome State Fault Refusal :=
  seqInstr 2#16 (prioritize n m) s

/-- ROL Rwn, Rwm `0C nm` (R223). -/
def execRolRwRw (n : RegNum) (m : RegNum) (s : State) : Host.Outcome State Fault Refusal :=
  seqInstr 2#16 (shiftReg .rol n m) s

/-- ROL Rwn, #data4 `1C #n` (R223). -/
def execRolRwImm4 (n : RegNum) (d : BitVec 4) (s : State) : Host.Outcome State Fault Refusal :=
  seqInstr 2#16 (shiftImm .rol n d) s

/-- ROR Rwn, Rwm `2C nm` (R224). -/
def execRorRwRw (n : RegNum) (m : RegNum) (s : State) : Host.Outcome State Fault Refusal :=
  seqInstr 2#16 (shiftReg .ror n m) s

/-- ROR Rwn, #data4 `3C #n` (R224). -/
def execRorRwImm4 (n : RegNum) (d : BitVec 4) (s : State) : Host.Outcome State Fault Refusal :=
  seqInstr 2#16 (shiftImm .ror n d) s

/-- SHL Rwn, Rwm `4C nm` (R225). -/
def execShlRwRw (n : RegNum) (m : RegNum) (s : State) : Host.Outcome State Fault Refusal :=
  seqInstr 2#16 (shiftReg .shl n m) s

/-- SHL Rwn, #data4 `5C #n` (R225). -/
def execShlRwImm4 (n : RegNum) (d : BitVec 4) (s : State) : Host.Outcome State Fault Refusal :=
  seqInstr 2#16 (shiftImm .shl n d) s

/-- SHR Rwn, Rwm `6C nm` (R226). -/
def execShrRwRw (n : RegNum) (m : RegNum) (s : State) : Host.Outcome State Fault Refusal :=
  seqInstr 2#16 (shiftReg .shr n m) s

/-- SHR Rwn, #data4 `7C #n` (R226). -/
def execShrRwImm4 (n : RegNum) (d : BitVec 4) (s : State) : Host.Outcome State Fault Refusal :=
  seqInstr 2#16 (shiftImm .shr n d) s

/-- ASHR Rwn, Rwm `AC nm` (R222). -/
def execAshrRwRw (n : RegNum) (m : RegNum) (s : State) : Host.Outcome State Fault Refusal :=
  seqInstr 2#16 (shiftReg .ashr n m) s

/-- ASHR Rwn, #data4 `BC #n` (R222). -/
def execAshrRwImm4 (n : RegNum) (d : BitVec 4) (s : State) : Host.Outcome State Fault Refusal :=
  seqInstr 2#16 (shiftImm .ashr n d) s

end Sys2Proof.Machine
end

