-- ==== Sys2Proof/Machine/Stack.lean ====
section
/-!
DEFINITION. System stack and return instructions (47_stack_return.md): PUSH, POP, SCXT, RET, RETS, RETP, RETI.
-/

namespace Sys2Proof.Machine

/-- PUSH: the register is read first; flags of the value (47_stack_return.md R302). -/
def pushReg (r : ShortReg) (nx : Word) (s : State) : Res Unit :=
  (readLoc .word (.short r) s).bind fun t s =>
  (push nx t s).bind fun _ s =>
  .ok () (setFlags (moveFlags s.flags t) s)

/-- POP: flags of the value, unless the register is the PSW (47_stack_return.md R301). -/
def popReg (r : ShortReg) (nx : Word) (s : State) : Res Unit :=
  (pop s).bind fun t s =>
  (shortAddr .word r s).bind fun d s =>
  (memWrite .word nx d t s).bind fun _ s =>
  .ok () (setFlagsFor d (moveFlags s.flags t) s)

/-- SCXT: both values are read, the old one pushed, the new one written; no flag changes (47_stack_return.md R303). -/
def switchContext (r : ShortReg) (src : Src) (nx : Word) (s : State) : Res Unit :=
  (readLoc .word (.short r) s).bind fun t1 s =>
  (readSrc .word src s).bind fun t2 s =>
  (push nx t1 s).bind fun _ s =>
  (shortAddr .word r s).bind fun d s =>
  memWrite .word nx d t2 s

/-- RET (47_stack_return.md R304). -/
def returnNear (_nx : Word) (s : State) : Res Word := pop s

/-- RETS: IP, then CSP without its upper byte (47_stack_return.md R307). -/
def returnSeg (_nx : Word) (s : State) : Res Word :=
  (pop s).bind fun t s =>
  (pop s).bind fun c s =>
  .ok t { s with csp := loByte c }

/-- RETP: IP, then the register; flags of the register's value unless it is the PSW (47_stack_return.md R306). -/
def returnPop (r : ShortReg) (nx : Word) (s : State) : Res Word :=
  (pop s).bind fun t s =>
  (pop s).bind fun v s =>
  (shortAddr .word r s).bind fun d s =>
  (memWrite .word nx d v s).bind fun _ s =>
  .ok t (setFlagsFor d (moveFlags s.flags v) s)

/-- RETI: IP, CSP if segmented, then the whole PSW; CSP is written before the PSW is popped (47_stack_return.md R305,
60_exceptions.md R364). Refused right after
a write of SYSCON (70_reset_and_hazards.md R404). -/
def returnInterrupt (_nx : Word) (s : State) : Res Word :=
  if s.hazIn.syscon then .refused .hazardSyscon else
  (pop s).bind fun t s1 =>
  (if sgtdis s1 then .ok () s1 else (pop s1).bind fun c s2 => .ok () { s2 with csp := loByte c }).bind fun _ s2 =>
  (pop s2).bind fun p s3 =>
  .ok t (leaveFrame { s3 with psw := p &&& pswMask s3.par.psw })

/-- RET `CB 00` (R304). -/
def execRet (s : State) : Host.Outcome State Fault Refusal :=
  runInstr 2#16 returnNear s

/-- RETS `DB 00` (R307). -/
def execRets (s : State) : Host.Outcome State Fault Refusal :=
  runInstr 2#16 returnSeg s

/-- RETP reg `EB RR` (R306). -/
def execRetp (r : ShortReg) (s : State) : Host.Outcome State Fault Refusal :=
  runInstr 2#16 (returnPop r) s

/-- RETI `FB 88` (R305). -/
def execReti (s : State) : Host.Outcome State Fault Refusal :=
  runInstr 2#16 returnInterrupt s

/-- PUSH reg `EC RR` (R302). -/
def execPush (r : ShortReg) (s : State) : Host.Outcome State Fault Refusal :=
  seqInstr 2#16 (pushReg r) s

/-- POP reg `FC RR` (R301). -/
def execPop (r : ShortReg) (s : State) : Host.Outcome State Fault Refusal :=
  seqInstr 2#16 (popReg r) s

/-- SCXT reg, #data16 `C6 RR ## ##` (R303). -/
def execScxtRegImm (r : ShortReg) (d : Word) (s : State) : Host.Outcome State Fault Refusal :=
  seqInstr 4#16 (switchContext r (.imm d)) s

/-- SCXT reg, mem `D6 RR MM MM` (R303). -/
def execScxtRegMem (r : ShortReg) (a : Word) (s : State) : Host.Outcome State Fault Refusal :=
  seqInstr 4#16 (switchContext r (.loc (.long a))) s

end Sys2Proof.Machine
end

