-- ==== Sys2Proof/Machine/System.lean ====
section
/-!
DEFINITION. System control, ATOMIC and EXTended instructions, and the opcodes that are not instructions of this core
(48_system_control.md).
-/

namespace Sys2Proof.Machine

/-- SRST: the reset transition; execution goes on at the reset value of IP (48_system_control.md R321). -/
def softwareReset (_nx : Word) (s : State) : Res Word := .ok (resetCpu s).ip (resetCpu s)

/-- IDLE: refused inside a sequence (48_system_control.md R322, R337). -/
def enterIdle (_nx : Word) (s : State) : Res Unit :=
  if s.extCount = 0 then .ok () { s with run := .idle } else .refused .idleInSequence

/-- PWRDN: power-down only while the NMI pin is low (48_system_control.md R323). -/
def enterPowerDown (_nx : Word) (s : State) : Res Unit :=
  .ok () { s with run := if s.nmiPinLow then .powerdown else s.run }

/-- SRVWDT (48_system_control.md R324). -/
def serviceWatchdog (_nx : Word) (s : State) : Res Unit := .ok () (signal .wdtService { s with wdtLocked := true })

/-- DISWDT: without effect once locked (48_system_control.md R325). -/
def disableWatchdog (_nx : Word) (s : State) : Res Unit := .ok () { s with wdtEnabled := s.wdtEnabled && s.wdtLocked }

/-- EINIT: executing it again has no further effect (48_system_control.md R326). -/
def endInit (_nx : Word) (s : State) : Res Unit :=
  .ok () { s with
    initDone := true
    wdtLocked := true
    events := if s.initDone then s.events else .rstoutHigh :: s.events }

/-- #data2: the sequence length 1 to 4 (48_system_control.md R330). -/
def seqLength (k : SeqLen) : Nat := k.toNat + 1

/-- Whether an EXT* with this ESFR mode and this override leaves a mode in force unset (48_system_control.md R338). EXTR
inside an EXTR sequence leaves none unset and runs. DESIGN CHOICE: notes/assumptions/35.md. -/
def leavesMode (esfr : Bool) (ovr : Override) (s : State) : Bool :=
  decide (s.extCount ≠ 0) && ((s.extEsfr && !esfr) || (!(s.extOvr == .none) && (ovr == .none)))

/-- Begin for ATOMIC: the counter is loaded, the modes are kept (48_system_control.md R331, R337). -/
def beginAtomic (k : SeqLen) (_nx : Word) (s : State) : Res Unit := .ok () { s with extCount := seqLength k }

/-- Begin for an EXT*: the counter is loaded and the modes it sets are installed; refused if a mode in force would stay
unset (48_system_control.md R337, R338). -/
def beginExtend (esfr : Bool) (ovr : Override) (k : SeqLen) (s : State) : Res Unit :=
  if leavesMode esfr ovr s then .refused .nestedExtend
  else .ok () { s with extCount := seqLength k, extEsfr := esfr, extOvr := ovr }

/-- EXTR (48_system_control.md R332). -/
def beginEsfr (k : SeqLen) (_nx : Word) (s : State) : Res Unit := beginExtend true .none k s

/-- EXTP and EXTPR with a register: its low ten bits (48_system_control.md R333, R334). -/
def beginPageReg (esfr : Bool) (m : RegNum) (k : SeqLen) (_nx : Word) (s : State) : Res Unit :=
  (readGpr .word m s).bind fun p s => beginExtend esfr (.page (p.extractLsb' 0 10)) k s

/-- EXTP and EXTPR with a page number (48_system_control.md R333, R334). -/
def beginPageImm (esfr : Bool) (pag : PageNum) (k : SeqLen) (_nx : Word) (s : State) : Res Unit :=
  beginExtend esfr (.page pag) k s

/-- EXTS and EXTSR with a register: its low eight bits (48_system_control.md R335, R336). -/
def beginSegReg (esfr : Bool) (m : RegNum) (k : SeqLen) (_nx : Word) (s : State) : Res Unit :=
  (readGpr .word m s).bind fun p s => beginExtend esfr (.seg (loByte p)) k s

/-- EXTS and EXTSR with a segment number (48_system_control.md R335, R336). -/
def beginSegImm (esfr : Bool) (seg : SegNum) (k : SeqLen) (_nx : Word) (s : State) : Res Unit :=
  beginExtend esfr (.seg seg) k s

/-- A MAC opcode: an undefined opcode on a product without the MAC, refused on one with it (48_system_control.md
R346). -/
def macOpcode (_nx : Word) (s : State) : Res Word := if s.par.hasMac then .refused .macPresent else .trap .undopc s

/-- An undefined opcode: the class B trap UNDOPC (48_system_control.md R347). -/
def undefinedOpcode (_nx : Word) (s : State) : Res Word := .trap .undopc s

/-- A protected opcode whose bytes 1 to 3 are not its pattern: the class B trap PRTFLT (48_system_control.md R320). -/
def protectionFault (_nx : Word) (s : State) : Res Word := .trap .prtflt s

/-- NOP `CC 00` (R327). -/
def execNop (s : State) : Host.Outcome State Fault Refusal :=
  seqInstr 2#16 (fun _ s => .ok () s) s

/-- CoXXX Rwn, [Rwm(x)] `83 .. .. ..` (R346). -/
def execCoxxx83 (s : State) : Host.Outcome State Fault Refusal :=
  runInstr 4#16 macOpcode s

/-- CoXXX [IDXi(x)], [Rwn(x)] `93 .. .. ..` (R346). -/
def execCoxxx93 (s : State) : Host.Outcome State Fault Refusal :=
  runInstr 4#16 macOpcode s

/-- CoXXX Rwn, Rwm `A3 .. .. ..` (R346). -/
def execCoxxxA3 (s : State) : Host.Outcome State Fault Refusal :=
  runInstr 4#16 macOpcode s

/-- CoSTORE [Rwn(x)], CoReg `B3 .. .. ..` (R346). -/
def execCostoreB3 (s : State) : Host.Outcome State Fault Refusal :=
  runInstr 4#16 macOpcode s

/-- CoSTORE Rwn, CoReg `C3 .. .. ..` (R346). -/
def execCostoreC3 (s : State) : Host.Outcome State Fault Refusal :=
  runInstr 4#16 macOpcode s

/-- CoMOV [IDXi(x)], [Rwn(x)] `D3 .. .. ..` (R346). -/
def execComovD3 (s : State) : Host.Outcome State Fault Refusal :=
  runInstr 4#16 macOpcode s

/-- IDLE `87 78 87 87` (R322). -/
def execIdle (s : State) : Host.Outcome State Fault Refusal :=
  seqInstr 4#16 enterIdle s

/-- protection_fault `87 .. .. .. (any other bytes 1-3)` (R320). -/
def execProtFault87 (_b1 _b2 _b3 : Byte) (s : State) : Host.Outcome State Fault Refusal :=
  runInstr 4#16 protectionFault s

/-- PWRDN `97 68 97 97` (R323). -/
def execPwrdn (s : State) : Host.Outcome State Fault Refusal :=
  seqInstr 4#16 enterPowerDown s

/-- protection_fault `97 .. .. .. (any other bytes 1-3)` (R320). -/
def execProtFault97 (_b1 _b2 _b3 : Byte) (s : State) : Host.Outcome State Fault Refusal :=
  runInstr 4#16 protectionFault s

/-- SRVWDT `A7 58 A7 A7` (R324). -/
def execSrvwdt (s : State) : Host.Outcome State Fault Refusal :=
  seqInstr 4#16 serviceWatchdog s

/-- protection_fault `A7 .. .. .. (any other bytes 1-3)` (R320). -/
def execProtFaultA7 (_b1 _b2 _b3 : Byte) (s : State) : Host.Outcome State Fault Refusal :=
  runInstr 4#16 protectionFault s

/-- DISWDT `A5 5A A5 A5` (R325). -/
def execDiswdt (s : State) : Host.Outcome State Fault Refusal :=
  seqInstr 4#16 disableWatchdog s

/-- protection_fault `A5 .. .. .. (any other bytes 1-3)` (R320). -/
def execProtFaultA5 (_b1 _b2 _b3 : Byte) (s : State) : Host.Outcome State Fault Refusal :=
  runInstr 4#16 protectionFault s

/-- EINIT `B5 4A B5 B5` (R326). -/
def execEinit (s : State) : Host.Outcome State Fault Refusal :=
  seqInstr 4#16 endInit s

/-- protection_fault `B5 .. .. .. (any other bytes 1-3)` (R320). -/
def execProtFaultB5 (_b1 _b2 _b3 : Byte) (s : State) : Host.Outcome State Fault Refusal :=
  runInstr 4#16 protectionFault s

/-- SRST `B7 48 B7 B7` (R321). -/
def execSrst (s : State) : Host.Outcome State Fault Refusal :=
  runInstr 4#16 softwareReset s

/-- protection_fault `B7 .. .. .. (any other bytes 1-3)` (R320). -/
def execProtFaultB7 (_b1 _b2 _b3 : Byte) (s : State) : Host.Outcome State Fault Refusal :=
  runInstr 4#16 protectionFault s

/-- ATOMIC #data2 `D1 :00##-0` (R331). -/
def execAtomic (k : SeqLen) (s : State) : Host.Outcome State Fault Refusal :=
  seqInstr 2#16 (beginAtomic k) s

/-- EXTR #data2 `D1 :10##-0` (R332). -/
def execExtr (k : SeqLen) (s : State) : Host.Outcome State Fault Refusal :=
  seqInstr 2#16 (beginEsfr k) s

/-- EXTS Rwm, #data2 `DC :00##-m` (R335). -/
def execExtsRw (m : RegNum) (k : SeqLen) (s : State) : Host.Outcome State Fault Refusal :=
  seqInstr 2#16 (beginSegReg false m k) s

/-- EXTP Rwm, #data2 `DC :01##-m` (R333). -/
def execExtpRw (m : RegNum) (k : SeqLen) (s : State) : Host.Outcome State Fault Refusal :=
  seqInstr 2#16 (beginPageReg false m k) s

/-- EXTSR Rwm, #data2 `DC :10##-m` (R336). -/
def execExtsrRw (m : RegNum) (k : SeqLen) (s : State) : Host.Outcome State Fault Refusal :=
  seqInstr 2#16 (beginSegReg true m k) s

/-- EXTPR Rwm, #data2 `DC :11##-m` (R334). -/
def execExtprRw (m : RegNum) (k : SeqLen) (s : State) : Host.Outcome State Fault Refusal :=
  seqInstr 2#16 (beginPageReg true m k) s

/-- EXTS #seg, #data2 `D7 :00##-0 ss 00` (R335). -/
def execExtsSeg (seg : SegNum) (k : SeqLen) (s : State) : Host.Outcome State Fault Refusal :=
  seqInstr 4#16 (beginSegImm false seg k) s

/-- EXTSR #seg, #data2 `D7 :10##-0 ss 00` (R336). -/
def execExtsrSeg (seg : SegNum) (k : SeqLen) (s : State) : Host.Outcome State Fault Refusal :=
  seqInstr 4#16 (beginSegImm true seg k) s

/-- EXTP #pag, #data2 `D7 :01##-0 pp 0:00pp` (R333). -/
def execExtpPag (pag : PageNum) (k : SeqLen) (s : State) : Host.Outcome State Fault Refusal :=
  seqInstr 4#16 (beginPageImm false pag k) s

/-- EXTPR #pag, #data2 `D7 :11##-0 pp 0:00pp` (R334). -/
def execExtprPag (pag : PageNum) (k : SeqLen) (s : State) : Host.Outcome State Fault Refusal :=
  seqInstr 4#16 (beginPageImm true pag k) s

/-- UNDEFINED `3B ..` (R347). -/
def execUndef3B (s : State) : Host.Outcome State Fault Refusal :=
  runInstr 2#16 undefinedOpcode s

/-- UNDEFINED `44 ..` (R347). -/
def execUndef44 (s : State) : Host.Outcome State Fault Refusal :=
  runInstr 2#16 undefinedOpcode s

/-- UNDEFINED `45 ..` (R347). -/
def execUndef45 (s : State) : Host.Outcome State Fault Refusal :=
  runInstr 2#16 undefinedOpcode s

/-- UNDEFINED `85 ..` (R347). -/
def execUndef85 (s : State) : Host.Outcome State Fault Refusal :=
  runInstr 2#16 undefinedOpcode s

/-- UNDEFINED `8B ..` (R347). -/
def execUndef8B (s : State) : Host.Outcome State Fault Refusal :=
  runInstr 2#16 undefinedOpcode s

/-- UNDEFINED `8C ..` (R347). -/
def execUndef8C (s : State) : Host.Outcome State Fault Refusal :=
  runInstr 2#16 undefinedOpcode s

/-- UNDEFINED `95 ..` (R347). -/
def execUndef95 (s : State) : Host.Outcome State Fault Refusal :=
  runInstr 2#16 undefinedOpcode s

/-- UNDEFINED `C1 ..` (R347). -/
def execUndefC1 (s : State) : Host.Outcome State Fault Refusal :=
  runInstr 2#16 undefinedOpcode s

/-- UNDEFINED `C7 ..` (R347). -/
def execUndefC7 (s : State) : Host.Outcome State Fault Refusal :=
  runInstr 2#16 undefinedOpcode s

/-- UNDEFINED `E3 ..` (R347). -/
def execUndefE3 (s : State) : Host.Outcome State Fault Refusal :=
  runInstr 2#16 undefinedOpcode s

/-- UNDEFINED `E5 ..` (R347). -/
def execUndefE5 (s : State) : Host.Outcome State Fault Refusal :=
  runInstr 2#16 undefinedOpcode s

/-- UNDEFINED `F5 ..` (R347). -/
def execUndefF5 (s : State) : Host.Outcome State Fault Refusal :=
  runInstr 2#16 undefinedOpcode s

/-- UNDEFINED `F8 ..` (R347). -/
def execUndefF8 (s : State) : Host.Outcome State Fault Refusal :=
  runInstr 2#16 undefinedOpcode s

/-- UNDEFINED `F9 ..` (R347). -/
def execUndefF9 (s : State) : Host.Outcome State Fault Refusal :=
  runInstr 2#16 undefinedOpcode s

end Sys2Proof.Machine
end

