-- ==== Sys2Proof/Machine/Dispatch.lean ====
section
/-!
DEFINITION. The dispatch: one arm per constructor of `Instr`, each a direct call of the instruction's own meaning.
-/

namespace Sys2Proof.Machine

def exec (i : Instr) (s : State) : Host.Outcome State Fault Refusal :=
  match i with
  | .addRwRw n m => Sys2Proof.Machine.execAddRwRw n m s
  | .addRegMem r a => Sys2Proof.Machine.execAddRegMem r a s
  | .addMemReg a r => Sys2Proof.Machine.execAddMemReg a r s
  | .addRegImm r d => Sys2Proof.Machine.execAddRegImm r d s
  | .addRwImm3 n d => Sys2Proof.Machine.execAddRwImm3 n d s
  | .addRwInd n k => Sys2Proof.Machine.execAddRwInd n k s
  | .addRwInc n k => Sys2Proof.Machine.execAddRwInc n k s
  | .addbRbRb n m => Sys2Proof.Machine.execAddbRbRb n m s
  | .addbRegMem r a => Sys2Proof.Machine.execAddbRegMem r a s
  | .addbMemReg a r => Sys2Proof.Machine.execAddbMemReg a r s
  | .addbRegImm r d => Sys2Proof.Machine.execAddbRegImm r d s
  | .addbRbImm3 n d => Sys2Proof.Machine.execAddbRbImm3 n d s
  | .addbRbInd n k => Sys2Proof.Machine.execAddbRbInd n k s
  | .addbRbInc n k => Sys2Proof.Machine.execAddbRbInc n k s
  | .addcRwRw n m => Sys2Proof.Machine.execAddcRwRw n m s
  | .addcRegMem r a => Sys2Proof.Machine.execAddcRegMem r a s
  | .addcMemReg a r => Sys2Proof.Machine.execAddcMemReg a r s
  | .addcRegImm r d => Sys2Proof.Machine.execAddcRegImm r d s
  | .addcRwImm3 n d => Sys2Proof.Machine.execAddcRwImm3 n d s
  | .addcRwInd n k => Sys2Proof.Machine.execAddcRwInd n k s
  | .addcRwInc n k => Sys2Proof.Machine.execAddcRwInc n k s
  | .addcbRbRb n m => Sys2Proof.Machine.execAddcbRbRb n m s
  | .addcbRegMem r a => Sys2Proof.Machine.execAddcbRegMem r a s
  | .addcbMemReg a r => Sys2Proof.Machine.execAddcbMemReg a r s
  | .addcbRegImm r d => Sys2Proof.Machine.execAddcbRegImm r d s
  | .addcbRbImm3 n d => Sys2Proof.Machine.execAddcbRbImm3 n d s
  | .addcbRbInd n k => Sys2Proof.Machine.execAddcbRbInd n k s
  | .addcbRbInc n k => Sys2Proof.Machine.execAddcbRbInc n k s
  | .subRwRw n m => Sys2Proof.Machine.execSubRwRw n m s
  | .subRegMem r a => Sys2Proof.Machine.execSubRegMem r a s
  | .subMemReg a r => Sys2Proof.Machine.execSubMemReg a r s
  | .subRegImm r d => Sys2Proof.Machine.execSubRegImm r d s
  | .subRwImm3 n d => Sys2Proof.Machine.execSubRwImm3 n d s
  | .subRwInd n k => Sys2Proof.Machine.execSubRwInd n k s
  | .subRwInc n k => Sys2Proof.Machine.execSubRwInc n k s
  | .subbRbRb n m => Sys2Proof.Machine.execSubbRbRb n m s
  | .subbRegMem r a => Sys2Proof.Machine.execSubbRegMem r a s
  | .subbMemReg a r => Sys2Proof.Machine.execSubbMemReg a r s
  | .subbRegImm r d => Sys2Proof.Machine.execSubbRegImm r d s
  | .subbRbImm3 n d => Sys2Proof.Machine.execSubbRbImm3 n d s
  | .subbRbInd n k => Sys2Proof.Machine.execSubbRbInd n k s
  | .subbRbInc n k => Sys2Proof.Machine.execSubbRbInc n k s
  | .subcRwRw n m => Sys2Proof.Machine.execSubcRwRw n m s
  | .subcRegMem r a => Sys2Proof.Machine.execSubcRegMem r a s
  | .subcMemReg a r => Sys2Proof.Machine.execSubcMemReg a r s
  | .subcRegImm r d => Sys2Proof.Machine.execSubcRegImm r d s
  | .subcRwImm3 n d => Sys2Proof.Machine.execSubcRwImm3 n d s
  | .subcRwInd n k => Sys2Proof.Machine.execSubcRwInd n k s
  | .subcRwInc n k => Sys2Proof.Machine.execSubcRwInc n k s
  | .subcbRbRb n m => Sys2Proof.Machine.execSubcbRbRb n m s
  | .subcbRegMem r a => Sys2Proof.Machine.execSubcbRegMem r a s
  | .subcbMemReg a r => Sys2Proof.Machine.execSubcbMemReg a r s
  | .subcbRegImm r d => Sys2Proof.Machine.execSubcbRegImm r d s
  | .subcbRbImm3 n d => Sys2Proof.Machine.execSubcbRbImm3 n d s
  | .subcbRbInd n k => Sys2Proof.Machine.execSubcbRbInd n k s
  | .subcbRbInc n k => Sys2Proof.Machine.execSubcbRbInc n k s
  | .cmpRwRw n m => Sys2Proof.Machine.execCmpRwRw n m s
  | .cmpRegMem r a => Sys2Proof.Machine.execCmpRegMem r a s
  | .cmpRegImm r d => Sys2Proof.Machine.execCmpRegImm r d s
  | .cmpRwImm3 n d => Sys2Proof.Machine.execCmpRwImm3 n d s
  | .cmpRwInd n k => Sys2Proof.Machine.execCmpRwInd n k s
  | .cmpRwInc n k => Sys2Proof.Machine.execCmpRwInc n k s
  | .cmpbRbRb n m => Sys2Proof.Machine.execCmpbRbRb n m s
  | .cmpbRegMem r a => Sys2Proof.Machine.execCmpbRegMem r a s
  | .cmpbRegImm r d => Sys2Proof.Machine.execCmpbRegImm r d s
  | .cmpbRbImm3 n d => Sys2Proof.Machine.execCmpbRbImm3 n d s
  | .cmpbRbInd n k => Sys2Proof.Machine.execCmpbRbInd n k s
  | .cmpbRbInc n k => Sys2Proof.Machine.execCmpbRbInc n k s
  | .xorRwRw n m => Sys2Proof.Machine.execXorRwRw n m s
  | .xorRegMem r a => Sys2Proof.Machine.execXorRegMem r a s
  | .xorMemReg a r => Sys2Proof.Machine.execXorMemReg a r s
  | .xorRegImm r d => Sys2Proof.Machine.execXorRegImm r d s
  | .xorRwImm3 n d => Sys2Proof.Machine.execXorRwImm3 n d s
  | .xorRwInd n k => Sys2Proof.Machine.execXorRwInd n k s
  | .xorRwInc n k => Sys2Proof.Machine.execXorRwInc n k s
  | .xorbRbRb n m => Sys2Proof.Machine.execXorbRbRb n m s
  | .xorbRegMem r a => Sys2Proof.Machine.execXorbRegMem r a s
  | .xorbMemReg a r => Sys2Proof.Machine.execXorbMemReg a r s
  | .xorbRegImm r d => Sys2Proof.Machine.execXorbRegImm r d s
  | .xorbRbImm3 n d => Sys2Proof.Machine.execXorbRbImm3 n d s
  | .xorbRbInd n k => Sys2Proof.Machine.execXorbRbInd n k s
  | .xorbRbInc n k => Sys2Proof.Machine.execXorbRbInc n k s
  | .andRwRw n m => Sys2Proof.Machine.execAndRwRw n m s
  | .andRegMem r a => Sys2Proof.Machine.execAndRegMem r a s
  | .andMemReg a r => Sys2Proof.Machine.execAndMemReg a r s
  | .andRegImm r d => Sys2Proof.Machine.execAndRegImm r d s
  | .andRwImm3 n d => Sys2Proof.Machine.execAndRwImm3 n d s
  | .andRwInd n k => Sys2Proof.Machine.execAndRwInd n k s
  | .andRwInc n k => Sys2Proof.Machine.execAndRwInc n k s
  | .andbRbRb n m => Sys2Proof.Machine.execAndbRbRb n m s
  | .andbRegMem r a => Sys2Proof.Machine.execAndbRegMem r a s
  | .andbMemReg a r => Sys2Proof.Machine.execAndbMemReg a r s
  | .andbRegImm r d => Sys2Proof.Machine.execAndbRegImm r d s
  | .andbRbImm3 n d => Sys2Proof.Machine.execAndbRbImm3 n d s
  | .andbRbInd n k => Sys2Proof.Machine.execAndbRbInd n k s
  | .andbRbInc n k => Sys2Proof.Machine.execAndbRbInc n k s
  | .orRwRw n m => Sys2Proof.Machine.execOrRwRw n m s
  | .orRegMem r a => Sys2Proof.Machine.execOrRegMem r a s
  | .orMemReg a r => Sys2Proof.Machine.execOrMemReg a r s
  | .orRegImm r d => Sys2Proof.Machine.execOrRegImm r d s
  | .orRwImm3 n d => Sys2Proof.Machine.execOrRwImm3 n d s
  | .orRwInd n k => Sys2Proof.Machine.execOrRwInd n k s
  | .orRwInc n k => Sys2Proof.Machine.execOrRwInc n k s
  | .orbRbRb n m => Sys2Proof.Machine.execOrbRbRb n m s
  | .orbRegMem r a => Sys2Proof.Machine.execOrbRegMem r a s
  | .orbMemReg a r => Sys2Proof.Machine.execOrbMemReg a r s
  | .orbRegImm r d => Sys2Proof.Machine.execOrbRegImm r d s
  | .orbRbImm3 n d => Sys2Proof.Machine.execOrbRbImm3 n d s
  | .orbRbInd n k => Sys2Proof.Machine.execOrbRbInd n k s
  | .orbRbInc n k => Sys2Proof.Machine.execOrbRbInc n k s
  | .bfldl q mask d => Sys2Proof.Machine.execBfldl q mask d s
  | .bfldh q mask d => Sys2Proof.Machine.execBfldh q mask d s
  | .bcmp zz z qq q => Sys2Proof.Machine.execBcmp zz z qq q s
  | .bmovn zz z qq q => Sys2Proof.Machine.execBmovn zz z qq q s
  | .bmov zz z qq q => Sys2Proof.Machine.execBmov zz z qq q s
  | .bor zz z qq q => Sys2Proof.Machine.execBor zz z qq q s
  | .band zz z qq q => Sys2Proof.Machine.execBand zz z qq q s
  | .bxor zz z qq q => Sys2Proof.Machine.execBxor zz z qq q s
  | .jb qq q rel => Sys2Proof.Machine.execJb qq q rel s
  | .jnb qq q rel => Sys2Proof.Machine.execJnb qq q rel s
  | .jbc qq q rel => Sys2Proof.Machine.execJbc qq q rel s
  | .jnbs qq q rel => Sys2Proof.Machine.execJnbs qq q rel s
  | .calla cc a => Sys2Proof.Machine.execCalla cc a s
  | .calls seg a => Sys2Proof.Machine.execCalls seg a s
  | .jmpa cc a => Sys2Proof.Machine.execJmpa cc a s
  | .jmps seg a => Sys2Proof.Machine.execJmps seg a s
  | .mul n m => Sys2Proof.Machine.execMul n m s
  | .mulu n m => Sys2Proof.Machine.execMulu n m s
  | .prior n m => Sys2Proof.Machine.execPrior n m s
  | .div n => Sys2Proof.Machine.execDiv n s
  | .divu n => Sys2Proof.Machine.execDivu n s
  | .divl n => Sys2Proof.Machine.execDivl n s
  | .divlu n => Sys2Proof.Machine.execDivlu n s
  | .trap t => Sys2Proof.Machine.execTrap t s
  | .calli cc n => Sys2Proof.Machine.execCalli cc n s
  | .callr rel => Sys2Proof.Machine.execCallr rel s
  | .ret => Sys2Proof.Machine.execRet s
  | .rets => Sys2Proof.Machine.execRets s
  | .retp r => Sys2Proof.Machine.execRetp r s
  | .reti => Sys2Proof.Machine.execReti s
  | .rolRwRw n m => Sys2Proof.Machine.execRolRwRw n m s
  | .rolRwImm4 n d => Sys2Proof.Machine.execRolRwImm4 n d s
  | .rorRwRw n m => Sys2Proof.Machine.execRorRwRw n m s
  | .rorRwImm4 n d => Sys2Proof.Machine.execRorRwImm4 n d s
  | .shlRwRw n m => Sys2Proof.Machine.execShlRwRw n m s
  | .shlRwImm4 n d => Sys2Proof.Machine.execShlRwImm4 n d s
  | .shrRwRw n m => Sys2Proof.Machine.execShrRwRw n m s
  | .shrRwImm4 n d => Sys2Proof.Machine.execShrRwImm4 n d s
  | .ashrRwRw n m => Sys2Proof.Machine.execAshrRwRw n m s
  | .ashrRwImm4 n d => Sys2Proof.Machine.execAshrRwImm4 n d s
  | .jmpi cc n => Sys2Proof.Machine.execJmpi cc n s
  | .nop => Sys2Proof.Machine.execNop s
  | .push r => Sys2Proof.Machine.execPush r s
  | .pop r => Sys2Proof.Machine.execPop r s
  | .jmpr cc rel => Sys2Proof.Machine.execJmpr cc rel s
  | .bclr qq q => Sys2Proof.Machine.execBclr qq q s
  | .bset qq q => Sys2Proof.Machine.execBset qq q s
  | .cmpi1RwImm4 n d => Sys2Proof.Machine.execCmpi1RwImm4 n d s
  | .cmpi1RwMem n a => Sys2Proof.Machine.execCmpi1RwMem n a s
  | .cmpi1RwImm16 n d => Sys2Proof.Machine.execCmpi1RwImm16 n d s
  | .cmpi2RwImm4 n d => Sys2Proof.Machine.execCmpi2RwImm4 n d s
  | .cmpi2RwMem n a => Sys2Proof.Machine.execCmpi2RwMem n a s
  | .cmpi2RwImm16 n d => Sys2Proof.Machine.execCmpi2RwImm16 n d s
  | .cmpd1RwImm4 n d => Sys2Proof.Machine.execCmpd1RwImm4 n d s
  | .cmpd1RwMem n a => Sys2Proof.Machine.execCmpd1RwMem n a s
  | .cmpd1RwImm16 n d => Sys2Proof.Machine.execCmpd1RwImm16 n d s
  | .cmpd2RwImm4 n d => Sys2Proof.Machine.execCmpd2RwImm4 n d s
  | .cmpd2RwMem n a => Sys2Proof.Machine.execCmpd2RwMem n a s
  | .cmpd2RwImm16 n d => Sys2Proof.Machine.execCmpd2RwImm16 n d s
  | .neg n => Sys2Proof.Machine.execNeg n s
  | .cpl n => Sys2Proof.Machine.execCpl n s
  | .negb n => Sys2Proof.Machine.execNegb n s
  | .cplb n => Sys2Proof.Machine.execCplb n s
  | .coxxx83 => Sys2Proof.Machine.execCoxxx83 s
  | .coxxx93 => Sys2Proof.Machine.execCoxxx93 s
  | .coxxxA3 => Sys2Proof.Machine.execCoxxxA3 s
  | .costoreB3 => Sys2Proof.Machine.execCostoreB3 s
  | .costoreC3 => Sys2Proof.Machine.execCostoreC3 s
  | .comovD3 => Sys2Proof.Machine.execComovD3 s
  | .movIndMem n a => Sys2Proof.Machine.execMovIndMem n a s
  | .movMemInd a n => Sys2Proof.Machine.execMovMemInd a n s
  | .movbIndMem n a => Sys2Proof.Machine.execMovbIndMem n a s
  | .movbMemInd a n => Sys2Proof.Machine.execMovbMemInd a n s
  | .idle => Sys2Proof.Machine.execIdle s
  | .protFault87 b1 b2 b3 => Sys2Proof.Machine.execProtFault87 b1 b2 b3 s
  | .pwrdn => Sys2Proof.Machine.execPwrdn s
  | .protFault97 b1 b2 b3 => Sys2Proof.Machine.execProtFault97 b1 b2 b3 s
  | .srvwdt => Sys2Proof.Machine.execSrvwdt s
  | .protFaultA7 b1 b2 b3 => Sys2Proof.Machine.execProtFaultA7 b1 b2 b3 s
  | .diswdt => Sys2Proof.Machine.execDiswdt s
  | .protFaultA5 b1 b2 b3 => Sys2Proof.Machine.execProtFaultA5 b1 b2 b3 s
  | .einit => Sys2Proof.Machine.execEinit s
  | .protFaultB5 b1 b2 b3 => Sys2Proof.Machine.execProtFaultB5 b1 b2 b3 s
  | .srst => Sys2Proof.Machine.execSrst s
  | .protFaultB7 b1 b2 b3 => Sys2Proof.Machine.execProtFaultB7 b1 b2 b3 s
  | .movRwInd n m => Sys2Proof.Machine.execMovRwInd n m s
  | .movbRbInd n m => Sys2Proof.Machine.execMovbRbInd n m s
  | .movRwInc n m => Sys2Proof.Machine.execMovRwInc n m s
  | .movbRbInc n m => Sys2Proof.Machine.execMovbRbInc n m s
  | .movIndRw m n => Sys2Proof.Machine.execMovIndRw m n s
  | .movbIndRb m n => Sys2Proof.Machine.execMovbIndRb m n s
  | .movDecRw m n => Sys2Proof.Machine.execMovDecRw m n s
  | .movbDecRb m n => Sys2Proof.Machine.execMovbDecRb m n s
  | .movIndInd n m => Sys2Proof.Machine.execMovIndInd n m s
  | .movbIndInd n m => Sys2Proof.Machine.execMovbIndInd n m s
  | .movIncInd n m => Sys2Proof.Machine.execMovIncInd n m s
  | .movbIncInd n m => Sys2Proof.Machine.execMovbIncInd n m s
  | .movIndInc n m => Sys2Proof.Machine.execMovIndInc n m s
  | .movbIndInc n m => Sys2Proof.Machine.execMovbIndInc n m s
  | .movbzRwRb n m => Sys2Proof.Machine.execMovbzRwRb n m s
  | .movbzRegMem r a => Sys2Proof.Machine.execMovbzRegMem r a s
  | .movbzMemReg a r => Sys2Proof.Machine.execMovbzMemReg a r s
  | .movbsRwRb n m => Sys2Proof.Machine.execMovbsRwRb n m s
  | .movbsRegMem r a => Sys2Proof.Machine.execMovbsRegMem r a s
  | .movbsMemReg a r => Sys2Proof.Machine.execMovbsMemReg a r s
  | .movDispRw m d n => Sys2Proof.Machine.execMovDispRw m d n s
  | .movRwDisp n m d => Sys2Proof.Machine.execMovRwDisp n m d s
  | .movbDispRb m d n => Sys2Proof.Machine.execMovbDispRb m d n s
  | .movbRbDisp n m d => Sys2Proof.Machine.execMovbRbDisp n m d s
  | .scxtRegImm r d => Sys2Proof.Machine.execScxtRegImm r d s
  | .scxtRegMem r a => Sys2Proof.Machine.execScxtRegMem r a s
  | .atomic k => Sys2Proof.Machine.execAtomic k s
  | .extr k => Sys2Proof.Machine.execExtr k s
  | .extsRw m k => Sys2Proof.Machine.execExtsRw m k s
  | .extpRw m k => Sys2Proof.Machine.execExtpRw m k s
  | .extsrRw m k => Sys2Proof.Machine.execExtsrRw m k s
  | .extprRw m k => Sys2Proof.Machine.execExtprRw m k s
  | .extsSeg seg k => Sys2Proof.Machine.execExtsSeg seg k s
  | .extsrSeg seg k => Sys2Proof.Machine.execExtsrSeg seg k s
  | .extpPag pag k => Sys2Proof.Machine.execExtpPag pag k s
  | .extprPag pag k => Sys2Proof.Machine.execExtprPag pag k s
  | .movRwImm4 n d => Sys2Proof.Machine.execMovRwImm4 n d s
  | .movbRbImm4 n d => Sys2Proof.Machine.execMovbRbImm4 n d s
  | .pcall r a => Sys2Proof.Machine.execPcall r a s
  | .movRegImm r d => Sys2Proof.Machine.execMovRegImm r d s
  | .movbRegImm r d => Sys2Proof.Machine.execMovbRegImm r d s
  | .movRwRw n m => Sys2Proof.Machine.execMovRwRw n m s
  | .movbRbRb n m => Sys2Proof.Machine.execMovbRbRb n m s
  | .movRegMem r a => Sys2Proof.Machine.execMovRegMem r a s
  | .movbRegMem r a => Sys2Proof.Machine.execMovbRegMem r a s
  | .movMemReg a r => Sys2Proof.Machine.execMovMemReg a r s
  | .movbMemReg a r => Sys2Proof.Machine.execMovbMemReg a r s
  | .undef3B => Sys2Proof.Machine.execUndef3B s
  | .undef44 => Sys2Proof.Machine.execUndef44 s
  | .undef45 => Sys2Proof.Machine.execUndef45 s
  | .undef85 => Sys2Proof.Machine.execUndef85 s
  | .undef8B => Sys2Proof.Machine.execUndef8B s
  | .undef8C => Sys2Proof.Machine.execUndef8C s
  | .undef95 => Sys2Proof.Machine.execUndef95 s
  | .undefC1 => Sys2Proof.Machine.execUndefC1 s
  | .undefC7 => Sys2Proof.Machine.execUndefC7 s
  | .undefE3 => Sys2Proof.Machine.execUndefE3 s
  | .undefE5 => Sys2Proof.Machine.execUndefE5 s
  | .undefF5 => Sys2Proof.Machine.execUndefF5 s
  | .undefF8 => Sys2Proof.Machine.execUndefF8 s
  | .undefF9 => Sys2Proof.Machine.execUndefF9 s

end Sys2Proof.Machine
end

