-- ==== Sys2Proof/Machine/Boundary.lean ====
section
/-!
DEFINITION. What happens at and around an instruction boundary: the environment's events (20_memory.md R88,
60_exceptions.md R361, R365), class A traps and interrupt arbitration (R353, R365, R366), idle mode (R374), the fetch
(20_memory.md R80, 30_encoding.md R117), the sequence counter (48_system_control.md R337) and the end of a run
(60_exceptions.md R378).
-/

namespace Sys2Proof.Machine

/-! The environment -/

/-- Whether a group of events resets the CPU (70_reset_and_hazards.md R390; the watchdog only while it is enabled and
the clocks run, 60_exceptions.md R373, R374). DESIGN CHOICE, as decision D26 has no watchdog reset:
notes/assumptions/38.md. -/
def resetsNow (s : State) (evs : List EnvEvent) : Bool :=
  evs.contains .reset || (evs.contains .watchdogReset && s.wdtEnabled && !(s.run == .powerdown))

/-- An event other than a reset: NMI sets its TFR flag and becomes pending (60_exceptions.md R361), a request sets
xxIR (R365), a bus master's write changes memory, whatever MEMMAP and PA_BITS say of the address (20_memory.md R88;
DESIGN CHOICE: notes/assumptions/21.md). -/
def deliver (s : State) (e : EnvEvent) : State :=
  match e with
  | .reset => s
  | .watchdogReset => s
  | .nmi => { s with tfr := s.tfr ||| bitAt s.par.traps.nmiBit, pendNmi := true }
  | .irq k => { s with irqs := s.irqs.modify k (fun q => { q with ic := q.ic ||| 0x80#8 }) }
  | .busWrite a v => setByte s a v
  | .nmiPin low => { s with nmiPinLow := low }

/-- Whether an event waits for an open boundary: writes of bus agents do (20_memory.md R88). -/
def waitsForOpen : EnvEvent → Bool
  | .busWrite _ _ => true
  | _ => false

/-- Events put in front of what comes at the next boundary. -/
def postpone (held : List EnvEvent) (rest : List (List EnvEvent)) : List (List EnvEvent) :=
  match held, rest with
  | [], rest => rest
  | held, [] => [held]
  | held, g :: gs => (held ++ g) :: gs

/-- The events of this boundary delivered; while a sequence runs, writes of bus agents wait (20_memory.md R88). -/
def deliverAll (evs : List EnvEvent) (rest : List (List EnvEvent)) (s : State) : State :=
  if s.extCount = 0 then evs.foldl deliver { s with inputs := rest }
  else (evs.filter (fun e => !waitsForOpen e)).foldl deliver
    { s with inputs := postpone (evs.filter waitsForOpen) rest }

/-! Class A traps -/

/-- The highest class A trap pending: NMI, then STKOF, then STKUF (60_exceptions.md R353). -/
def highestClassA (s : State) : Option ClassA :=
  if s.pendNmi then some .nmi else if s.pendStkof then some .stkof else if s.pendStkuf then some .stkuf else none

/-! Interrupts -/

/-- xxIE (60_exceptions.md R365). -/
def irqEnabled (q : IrqSource) : Bool := q.ic.getLsbD 6
/-- xxIR and xxIE: a candidate (60_exceptions.md R365). -/
def irqCandidate (q : IrqSource) : Bool := q.ic.getLsbD 7 && q.ic.getLsbD 6
/-- The pair (ILVL, GLVL) of a source as one number: bits 5:0 of its control register (60_exceptions.md R365). -/
def irqRank (q : IrqSource) : BitVec 6 := q.ic.extractLsb' 0 6
/-- ILVL of a source: bits 5:2. -/
def irqLevel (q : IrqSource) : BitVec 4 := q.ic.extractLsb' 2 4

/-- Whether two enabled sources have the same pair (60_exceptions.md R365: refused). -/
def ranksClash : List IrqSource → Bool
  | [] => false
  | q :: rest =>
    (irqEnabled q && rest.any (fun r => irqEnabled r && irqRank r == irqRank q)) || ranksClash rest

/-- The candidate with the largest pair, with its place in the table (60_exceptions.md R365). -/
def bestCandidate : List IrqSource → Nat → Option (Nat × IrqSource)
  | [], _ => none
  | q :: rest, k =>
    match bestCandidate rest (k + 1) with
    | none => if irqCandidate q then some (k, q) else none
    | some (j, r) => if irqCandidate q && decide (irqRank r < irqRank q) then some (k, q) else some (j, r)

/-- Whether a PSW admits a source: IEN = 1 and its ILVL above the PSW's, so level 0 never is (60_exceptions.md R365). -/
def accepts (l : PswLayout) (psw : Word) (q : IrqSource) : Bool := pswIen l psw && decide (pswIlvl l psw < irqLevel q)

/-- The PSW arbitration uses: the current one, or after an explicit PSW write one of those before it, freely
(70_reset_and_hazards.md R403). -/
def arbitrationPsw (s : State) : Word :=
  if s.arbHist = [] then s.psw else
  (s.psw :: s.arbHist.map Prod.snd).getD (Config.arbitrationChoice s.draws % (s.arbHist.length + 1)) s.psw

/-- The entry of an interrupt: the request flag is cleared, the level is the source's (60_exceptions.md R362, R365). -/
def enterIrq (k : Nat) (q : IrqSource) (s : State) : Res Unit :=
  enter .interrupt q.trapNo (irqLevel q) s.ip (putIrq s k (q.ic &&& 0x7F#8))

/-- One boundary has passed for the PSW values that arbitration may still use (70_reset_and_hazards.md R403). -/
def ageHistory (h : List (Nat × Word)) : List (Nat × Word) :=
  (h.map (fun p => (p.1 - 1, p.2))).filter (fun p => decide (p.1 ≠ 0))

/-- Arbitration at an open boundary: an outcome if it stops the model or an interrupt is entered, else nothing
(60_exceptions.md R365, R367). -/
def arbitrate (s : State) : Option (Host.Outcome State Fault Refusal) :=
  if ranksClash s.irqs then some (.refused .equalPriority) else
  match bestCandidate s.irqs 0 with
  | none => none
  | some (k, q) =>
    if q.pec then some (.refused .pecChannel)
    else if accepts s.par.psw (arbitrationPsw s) q then
      some (outcomeOf (enterIrq k q { s with draws := if s.arbHist = [] then s.draws else s.draws + 1 }))
    else none

/-- The state after an arbitration that accepted nothing: a free choice made is not made again. -/
def afterArbitration (s : State) : State :=
  { s with
    draws := if s.arbHist = [] || (bestCandidate s.irqs 0).isNone then s.draws else s.draws + 1 }

/-! The fetch -/

/-- The address of a code byte `k` bytes after IP, in the current segment (10_state.md R25, R28; 30_encoding.md
R117). -/
def codeAddr (s : State) (k : Word) : Addr := s.csp ++ (s.ip + k)

/-- Fetch and decode: the opcode byte, then as many bytes as its length says (20_memory.md R80, 30_encoding.md R117). A
4-byte instruction at FFFEh is refused (10_state.md R28). -/
def fetch (s : State) : Res Decoded :=
  (memRead .byte (codeAddr s 0#16) s).bind fun b0 s =>
  if instrLength b0 = 4 ∧ s.ip = 0xFFFE#16 then .refused .straddlingFetch else
  (memRead .byte (codeAddr s 1#16) s).bind fun b1 s =>
  if instrLength b0 = 4 then
    (memRead .byte (codeAddr s 2#16) s).bind fun b2 s =>
    (memRead .byte (codeAddr s 3#16) s).bind fun b3 s =>
    .ok (decode b0 b1 b2 b3) s
  else .ok (decode b0 b1 0#8 0#8) s

/-! One instruction in its sequence -/

/-- ATOMIC and the EXT* instructions, which load the counter instead of counting it (48_system_control.md R337). -/
def startsSequence : Instr → Bool
  | .atomic _ => true
  | .extr _ => true
  | .extpRw _ _ => true
  | .extpPag _ _ => true
  | .extprRw _ _ => true
  | .extprPag _ _ => true
  | .extsRw _ _ => true
  | .extsSeg _ _ => true
  | .extsrRw _ _ => true
  | .extsrSeg _ _ => true
  | _ => false

/-- The counter after an instruction inside a sequence; at 0 the addressing modes end (48_system_control.md R337). -/
def countSequence (s : State) : State :=
  if s.extCount - 1 = 0 then { s with extCount := 0, extEsfr := false, extOvr := .none }
  else { s with extCount := s.extCount - 1 }

/-- The hazards of the previous instruction are those that apply to this one (70_reset_and_hazards.md R406). -/
def shiftHazards (s : State) : State := { s with hazIn := s.hazOut, hazOut := Hazards.clear }

/-- What follows an instruction: the sequence counter, if it ran inside a sequence (48_system_control.md R337). -/
def afterInstr (i : Instr) (inside : Bool) (o : Host.Outcome State Fault Refusal) : Host.Outcome State Fault Refusal :=
  match o with
  | .next s => .next (if inside && !startsSequence i then countSequence s else s)
  | .fault f => .fault f
  | .refused r => .refused r

/-- The hazards move on and the PSW history ages; then the instruction runs; then the counter (48_system_control.md
R337). -/
def runDecoded (i : Instr) (s : State) : Host.Outcome State Fault Refusal :=
  afterInstr i (decide (s.extCount ≠ 0)) (exec i (shiftHazards { s with arbHist := ageHistory s.arbHist }))

/-- Fetch, decode, execute; an odd IP raises ILLINA before any fetch (60_exceptions.md R356, R368). -/
def runNext (s : State) : Host.Outcome State Fault Refusal :=
  if isOdd s.ip then outcomeOf (raiseB .illina s.ip s) else
  match fetch s with
  | .ok (.instr i) s' => runDecoded i s'
  | .ok (.reserved b0) _ => .refused (.reservedEncoding b0.toNat)
  | .trap _ _ => .refused .straddlingFetch
  | .fault f => .fault f
  | .refused r => .refused r

/-- The boundary before an instruction (60_exceptions.md R354, R366, R378): a state whose register bank is odd or crosses
FFFFh is refused (10_state.md R34); a class B routine that returned with its flag
set is entered again; at an open boundary a class A trap, else an interrupt is taken, else the run may end; else the next
instruction runs. Each entry is a step of its own. -/
def boundary (s : State) : Host.Outcome State Fault Refusal :=
  if !bankOk s.cp then .refused .badContextPointer else
  if s.retrapB then outcomeOf (enterB s.ip s) else
  if s.extCount = 0 then
    match highestClassA s with
    | some k => outcomeOf (enterA k s)
    | none =>
      match arbitrate s with
      | some o => o
      | none =>
        if s.par.endAddr = some (codeAddr s 0#16) then .fault .runEnded
        else runNext (afterArbitration s)
  else runNext s

/-- Whether something ends idle mode: a class A trap pending or an enabled request, one that was pending before IDLE too,
whether arbitration would accept it or not (48_system_control.md R322, 60_exceptions.md R374). DESIGN CHOICE:
notes/assumptions/36.md. -/
def wakes (s : State) : Bool := (highestClassA s).isSome || s.irqs.any irqCandidate

/-- One step after the environment's events: power-down stays, idle waits or wakes, running goes on (60_exceptions.md
R374, R378). -/
def advance (s : State) : Host.Outcome State Fault Refusal :=
  match s.run with
  | .running => boundary s
  | .idle => if wakes s then boundary { s with run := .running } else .next s
  | .powerdown => .next s

/-- One step on a boundary with a group of events: a reset is above everything (60_exceptions.md R353); in power-down
nothing but a reset acts (R374). -/
def stepWith (evs : List EnvEvent) (rest : List (List EnvEvent)) (s : State) : Host.Outcome State Fault Refusal :=
  if resetsNow s evs then .next (resetCpu { s with inputs := rest })
  else if s.run = .powerdown then .next { s with inputs := rest }
  else advance (deliverAll evs rest s)

end Sys2Proof.Machine
end

