-- ==== Sys2Proof/Machine/Step.lean ====
section
/-!
DEFINITION. One step of the machine, and where a test places the instruction that the next step fetches.
-/

namespace Sys2Proof.Machine

/-- One step: the events of this boundary, then an entry, a wait or one instruction (60_exceptions.md R366). In
power-down with nothing more to come the run has ended (R378 (b)). -/
def step (s : State) : Host.Outcome State Fault Refusal :=
  match s.inputs with
  | [] => if s.run = .powerdown then .fault .poweredDown else stepWith [] [] s
  | evs :: rest => stepWith evs rest s

/-- The state with an instruction of the opcode table stored where the next step fetches: four bytes at CSP:IP, the
table's bytes first, the others zero (notes/assumptions/1.md). -/
def State.withFetchWord (s : State) (nbits w : Nat) : State :=
  setByte (setByte (setByte (setByte s (codeAddr s 0#16) (tableByte nbits w 0))
    (codeAddr s 1#16) (tableByte nbits w 1))
    (codeAddr s 2#16) (tableByte nbits w 2))
    (codeAddr s 3#16) (tableByte nbits w 3)

end Sys2Proof.Machine
end

