-- ==== Sys2Proof/Safety.lean ====
section
/-!
DEFINITION. The terms in which statements are made: the invariant of the machine's states, what an access to an operand
finds and leaves where the spec gives it (memory and CPU registers; not a device, a hole or a refused write), the
frame of an instruction, and the grouping of instructions of one shape.
-/

namespace Sys2Proof.Machine

/-! The invariant -/

/-- What every reachable state satisfies: memory is canonical (20_memory.md R60), reserved and hardwired bits read as the
parameters say (10_state.md R30, R34, R35, R39), the sequence state is legal (R42), EINIT locks the watchdog
(48_system_control.md R326). -/
structure Inv (s : State) : Prop where
  memory : Memory.wf s.mem = true
  psw : s.psw &&& ~~~(pswMask s.par.psw) = 0#16
  tfr : s.tfr &&& ~~~(tfrMask s.par.traps) = 0#16
  cp : fixCp s.par.cpFixed s.cp = s.cp
  sp : s.sp &&& 0x0001#16 = 0#16
  count : s.extCount ≤ 4
  modes : s.extCount = 0 → s.extEsfr = false ∧ s.extOvr = .none
  locked : s.initDone = true → s.wdtLocked = true

/-- Parameters that describe a machine: no two CPU registers at one address, each at an even one, no two fields of the PSW
on one bit, no two traps on one bit of TFR (10_state.md R30, R33; 60_exceptions.md R354). -/
structure Params.Legal (p : Params) : Prop where
  registers : (allCpuRegs.map (sfrAddr p.sfr)).Nodup
  even : ∀ r, isOdd (sfrAddr p.sfr r) = false
  flags : [p.psw.n.val, p.psw.c.val, p.psw.v.val, p.psw.z.val, p.psw.e.val, p.psw.mulip.val, p.psw.usr0.val,
    p.psw.hlden.val, p.psw.ien.val, p.psw.ilvl.val, p.psw.ilvl.val + 1, p.psw.ilvl.val + 2,
    p.psw.ilvl.val + 3].Nodup
  traps : [p.traps.nmiBit, p.traps.stkofBit, p.traps.stkufBit, p.traps.undopcBit, p.traps.prtfltBit, p.traps.illopaBit,
    p.traps.illinaBit, p.traps.illbusBit].Nodup

/-! Operands -/

/-- The bytes an access of a width touches at an address. -/
def touches (w : Width) (d a : Addr) : Prop := a = d ∨ (w = .word ∧ a = d + 1)

/-- What an aligned access reads where the map has memory, a CPU register or an interrupt control register
(20_memory.md R81, R83, R84). -/
def peek (w : Width) (s : State) (a : Addr) : Option (BitVec w.bits) :=
  if beyondBits s a then none else
  match w with
  | .byte =>
    match place s a with
    | .reg r => some (selectByte a (readCpuReg r s))
    | .irq k => some (selectByte a (irqWord s k))
    | .ram => some (byteAt s a)
    | .rom => some (byteAt s a)
    | _ => none
  | .word =>
    if isOdd a then none else
    match place s a with
    | .reg r => some (readCpuReg r s)
    | .irq k => some (irqWord s k)
    | .ram => some (wordAt s a)
    | .rom => some (wordAt s a)
    | _ => none

/-- What an aligned word store outside the prefetch window leaves where the map has RAM, a CPU register that admits the
write or an interrupt control register (20_memory.md R81, R83, R84, R91). -/
def pokeWord (s : State) (a : Addr) (v : Word) : Option State :=
  if isOdd a || beyondBits s a then none else
  match place s a with
  | .reg r => if cpuRegRefusal r v s = none then some (putCpuReg r v s) else none
  | .irq k => some (putIrq s k (loByte v))
  | .ram => some (setWord s a v)
  | _ => none

/-- What a byte store leaves there: only that byte changes, but the PSW written by an address has its other byte cleared
(10_state.md R22, R31; 20_memory.md R79, R81; bits 15:8 of an interrupt control register discard it, 60_exceptions.md
R365). -/
def pokeByte (route : ByteRoute) (s : State) (a : Addr) (v : Byte) : Option State :=
  if beyondBits s a then none else
  match place s a with
  | .reg r =>
    if cpuRegRefusal r (byteIntoReg route r a v s) s = none then some (putCpuReg r (byteIntoReg route r a v s) s)
    else none
  | .irq k => some (if isOdd a then s else putIrq s k v)
  | .ram => some (setByte s a v)
  | _ => none

/-- What a store of an instruction whose next instruction is at `nx` leaves, for either width, at a destination named as
`route` says (20_memory.md R81, R91). -/
def pokeBy (route : ByteRoute) (w : Width) (s : State) (nx : Word) (a : Addr) (v : BitVec w.bits) : Option State :=
  match w with
  | .byte => if inWindow s nx a then none else pokeByte route s a v
  | .word => if inWindow s nx a || inWindow s nx (a + 1) then none else pokeWord s a v

/-- What a store to an address leaves. -/
def poke (w : Width) (s : State) (nx : Word) (a : Addr) (v : BitVec w.bits) : Option State := pokeBy .address w s nx a v

/-- What a store to an operand leaves: a byte written through `reg` below F0h clears the high byte of the (E)SFR
(20_memory.md R63). -/
def pokeLoc (w : Width) (l : Loc) (s : State) (nx : Word) (d : Addr) (v : BitVec w.bits) : Option State :=
  if storesWord w l then poke .word s nx d (v.setWidth 16) else pokeBy (byteRoute l) w s nx d v

/-- The width of a store to an operand (20_memory.md R63). -/
def storeWidth (w : Width) (l : Loc) : Width := if storesWord w l then .word else w

/-- The address of a GPR when the register bank may be used (10_state.md R21, R22, R34; 70_reset_and_hazards.md
R400). -/
def gprLoc (w : Width) (s : State) (n : RegNum) : Option Addr :=
  if s.hazIn.cp || !bankOk s.cp then none else
  match w with
  | .byte => some (near (s.cp + zext16 n))
  | .word => some (near (s.cp + 2#16 * zext16 n))

/-- What a write of word GPR n leaves: step 2 or 5 of an indirect access writes the pointer where its register then lies
(20_memory.md R69, 10_state.md R24). -/
def pokePtr (s : State) (nx : Word) (n : RegNum) (v : Word) : Option State :=
  (gprLoc .word s n).bind fun a => poke .word s nx a v

/-- The value of a GPR. -/
def gprVal (w : Width) (s : State) (n : RegNum) : Option (BitVec w.bits) := (gprLoc w s n).bind (peek w s)

/-- The physical address of a long address: through its DPP, or the override in force (20_memory.md R66, R68;
70_reset_and_hazards.md R401). -/
def longLoc (s : State) (a : Word) : Option Addr :=
  match s.extOvr with
  | .none => if dppHazard s (a.extractLsb' 14 2) then none else some (dppOf s (a.extractLsb' 14 2) ++ a.extractLsb' 0 14)
  | .page p => some (p ++ a.extractLsb' 0 14)
  | .seg g => some (g ++ a)

/-- The address of a short address `reg` (20_memory.md R62). -/
def shortLoc (w : Width) (s : State) (rr : ShortReg) : Option Addr :=
  if 0xF0#8 ≤ rr then gprLoc w s (nibLo rr)
  else some (near ((if s.extEsfr then 0xF000#16 else 0xFE00#16) + 2#16 * zext16 rr))

/-- The address of a bit word (20_memory.md R64). -/
def bitLoc (s : State) (qq : BitOff) : Option Addr :=
  if qq ≤ 0x7F#8 then some (near (0xFD00#16 + 2#16 * zext16 qq))
  else if qq ≤ 0xEF#8 then
    some (near ((if s.extEsfr then 0xF100#16 else 0xFF00#16) + 2#16 * zext16 (qq &&& 0x7F#8)))
  else gprLoc .word s (nibLo qq)

/-- The address of an operand (20_memory.md R61 to R70). -/
def operandLoc (w : Width) (s : State) (l : Loc) : Option Addr :=
  match l with
  | .gpr n => gprLoc w s n
  | .short rr => shortLoc w s rr
  | .long a => longLoc s a
  | .ind k => (gprVal .word s k).bind (longLoc s)
  | .disp k d => (gprVal .word s k).bind (fun p => longLoc s (p + d))

/-- The value of a source operand. -/
def sourceVal (w : Width) (s : State) (o : Src) : Option (BitVec w.bits) :=
  match o with
  | .imm d => some (d.setWidth w.bits)
  | .loc l => (operandLoc w s l).bind (peek w s)

/-- The word of a bit operand. -/
def bitWordVal (s : State) (qq : BitOff) : Option Word := (bitLoc s qq).bind (peek .word s)

/-! Reset -/

/-- What a CPU register reads after a reset: the value of RESET_VALUES with the register's hardwired bits, page i in DPPi
(10_state.md R36, R50; 70_reset_and_hazards.md R391). -/
def resetReg (p : Params) : CpuReg → Word
  | .dpp0 => 0#16
  | .dpp1 => 1#16
  | .dpp2 => 2#16
  | .dpp3 => 3#16
  | .csp => p.reset.csp.setWidth 16
  | .mdh => p.reset.mdh
  | .mdl => p.reset.mdl
  | .cp => fixCp p.cpFixed p.reset.cp
  | .sp => fixSp p.reset.sp
  | .stkov => p.reset.stkov
  | .stkun => p.reset.stkun
  | .mdc => p.reset.mdc
  | .psw => p.reset.psw &&& pswMask p.psw
  | .syscon => p.reset.syscon
  | .zeros => 0x0000#16
  | .ones => 0xFFFF#16
  | .tfr => p.reset.tfr &&& tfrMask p.traps

/-! The stack -/

/-- After a push: below STKOV the class A request arises while STACK_LIMITS is on, else the model refuses
(60_exceptions.md R358). -/
def lowLimit (s : State) : Option State :=
  if s.sp < s.stkov then
    if s.par.stackLimits then some { s with tfr := s.tfr ||| bitAt s.par.traps.stkofBit, pendStkof := true } else none
  else some s

/-- After a pop: above STKUN the class A request arises while STACK_LIMITS is on, else the model refuses
(60_exceptions.md R358). -/
def highLimit (s : State) : Option State :=
  if s.stkun < s.sp then
    if s.par.stackLimits then some { s with tfr := s.tfr ||| bitAt s.par.traps.stkufBit, pendStkuf := true } else none
  else some s

/-- What a push by an instruction leaves: SP ← SP - 2, then the word at SP (20_memory.md R74; 70_reset_and_hazards.md
R402). -/
def pushed (s : State) (nx v : Word) : Option State :=
  if s.hazIn.sp then none
  else (poke .word { s with sp := s.sp - 2#16 } nx (near (s.sp - 2#16)) v).bind lowLimit

/-- What a pop reads and leaves: the word at SP, then SP ← SP + 2 (20_memory.md R74; 70_reset_and_hazards.md R402). -/
def popped (s : State) : Option (Word × State) :=
  if s.hazIn.sp then none
  else (peek .word s (near s.sp)).bind fun v => (highLimit { s with sp := s.sp + 2#16 }).map fun t => (v, t)

/-- What a push of a trap entry leaves (60_exceptions.md R362, R358). -/
def entryPushed (s : State) (v : Word) : Option State :=
  (pokeWord { s with sp := s.sp - 2#16 } (near (s.sp - 2#16)) v).bind lowLimit

/-- What a hardware trap or interrupt entry leaves: PSW, CSP (while SGTDIS = 0) and the return address stacked in that
order, ILVL the level, CSP 0 (while SGTDIS = 0), IP the vector (60_exceptions.md R362). SGTDIS is looked at after the
push before, as R362 has it: a push can write SYSCON. -/
def entered (s : State) (f : Frame) (number : TrapNum) (level : BitVec 4) (ret : Word) : Option State :=
  (entryPushed s s.psw).bind fun s1 =>
  (if sgtdis s1 then some s1 else entryPushed s1 (zext16 s1.csp)).bind fun s2 =>
  (entryPushed s2 ret).bind fun s3 =>
  some { s3 with
    psw := withIlvl s3.par.psw s3.psw level
    csp := if sgtdis s3 then s3.csp else 0#8
    ip := 4#16 * zext16 number
    run := .running
    hazIn := Hazards.clear
    hazOut := Hazards.clear
    arbHist := []
    frames := f :: s3.frames }

/-- What a class B trap leaves: its flag set, the sequence ended, then the entry at the number of class B and level 15; none
while a class A flag is set, pending or not (60_exceptions.md R351, R362, R368; 48_system_control.md R338; DESIGN CHOICE:
notes/assumptions/39.md). -/
def enteredB (s : State) (k : ClassB) (ret : Word) : Option State :=
  if s.tfr &&& classAFlags s.par.traps = 0#16 ∧ classBFlag s.par.traps k &&& classAFlags s.par.traps = 0#16 then
    entered
      { s with
        tfr := s.tfr ||| classBFlag s.par.traps k, extCount := 0, extEsfr := false, extOvr := .none, retrapB := false }
      .classB s.par.traps.classB 15#4 ret
  else none

/-! The frame -/

/-- The address of the word that a CPU register fills. -/
def regWord (s : State) (r : CpuReg) : Addr := evenAddr (sfrAddr s.par.sfr r)

/-- What an instruction that writes only the operands at the addresses listed leaves unchanged: every byte of memory it
does not store to, every CPU register and interrupt control register at another address, the PSW but for its flags, and
the state that no operand reaches. A register written otherwise (SP by a push, MDL by a multiply) is listed by its own
address. -/
structure FrameExcept (ds : List (Width × Addr)) (s t : State) : Prop where
  bytes : ∀ a, (∀ p ∈ ds, ¬ touches p.1 p.2 a) → byteAt t a = byteAt s a
  regs : ∀ r, r ≠ .psw → (∀ p ∈ ds, regWord s r ≠ evenAddr p.2) → readCpuReg r t = readCpuReg r s
  pswRest : (∀ p ∈ ds, regWord s .psw ≠ evenAddr p.2) →
    t.psw &&& ~~~(flagMask s.par.psw) = s.psw &&& ~~~(flagMask s.par.psw)
  irqRegs : (∀ q ∈ s.irqs, ∀ p ∈ ds, q.icAddr ≠ evenAddr p.2) → t.irqs = s.irqs
  sequence : t.extCount = s.extCount ∧ t.extEsfr = s.extEsfr ∧ t.extOvr = s.extOvr
  modes : t.run = s.run ∧ t.initDone = s.initDone ∧ t.wdtEnabled = s.wdtEnabled ∧ t.wdtLocked = s.wdtLocked
  requests : t.pendNmi = s.pendNmi ∧ t.retrapB = s.retrapB
  limits : (∀ p ∈ ds, regWord s .tfr ≠ evenAddr p.2) → t.pendStkof = s.pendStkof ∧ t.pendStkuf = s.pendStkuf
  outside : t.par = s.par ∧ t.nmiPinLow = s.nmiPinLow ∧ t.inputs = s.inputs ∧ t.events = s.events

/-- A map without device windows: no read changes the state (20_memory.md R86). -/
def NoDevices (s : State) : Prop := ∀ r ∈ s.par.map, r.kind ≠ .device

/-- The frame of an instruction that enters no service routine: what it leaves unchanged when it answers a next state.
`ds` are the addresses it may write, computed from the state before; a next state with another list of unfinished service
routines is a trap entry, which the statements about traps describe. -/
def FrameOf (i : Instr) (ds : State → Option (List (Width × Addr))) : Prop :=
  ∀ s t l, NoDevices s → ds s = some l → exec i s = .next t → t.frames = s.frames → FrameExcept l s t

/-- The frame of an instruction that affects no flag: beside its frame, the whole PSW is unchanged unless it is one of the
operands written. -/
def FlaglessFrameOf (i : Instr) (ds : State → Option (List (Width × Addr))) : Prop :=
  FrameOf i ds ∧ ∀ s t l, NoDevices s → ds s = some l → exec i s = .next t → t.frames = s.frames →
    (∀ p ∈ l, regWord s .psw ≠ evenAddr p.2) → t.psw = s.psw

/-- The word operand at the address of a CPU register. -/
def atReg (s : State) (r : CpuReg) : Width × Addr := (.word, sfrAddr s.par.sfr r)

/-- The registers a push or a pop writes besides its operands: SP, and TFR where STACK_LIMITS is on (60_exceptions.md
R358). -/
def stackRegs (s : State) : List (Width × Addr) :=
  if s.par.stackLimits then [atReg s .sp, atReg s .tfr] else [atReg s .sp]

/-- The stack word that the k-th push of an instruction writes, from 1 (20_memory.md R74). -/
def pushSlot (s : State) (k : Word) : Width × Addr := (.word, near (s.sp - 2#16 * k))

/-- The operand `l` a store writes, and the word of the pointer register `k` written after it, where that register lies once
the store is done (20_memory.md R69, step 5; 10_state.md R24). -/
def storedThenPtr (w : Width) (l : Loc) (s : State) (nx : Word) (d : Addr) (v : BitVec w.bits) (k : RegNum) :
    Option (List (Width × Addr)) :=
  (pokeLoc w l s nx d v).bind fun u => (gprLoc .word u k).map fun p => [(storeWidth w l, d), (.word, p)]

/-! Code -/

/-- The bytes at the program counter decode to an instruction (20_memory.md R80, 30_encoding.md R117). -/
def CodeAt (s : State) (i : Instr) : Prop :=
  ∃ b0 b1, peek .byte s (codeAddr s 0#16) = some b0 ∧ peek .byte s (codeAddr s 1#16) = some b1 ∧
    ((instrLength b0 = 2 ∧ decode b0 b1 0#8 0#8 = .instr i) ∨
      (instrLength b0 = 4 ∧ s.ip ≠ 0xFFFE#16 ∧
        ∃ b2 b3, peek .byte s (codeAddr s 2#16) = some b2 ∧ peek .byte s (codeAddr s 3#16) = some b3 ∧
          decode b0 b1 b2 b3 = .instr i))

/-! Instructions of one shape -/

/-- The operand forms of the two-operand instructions but `[Rwi+]` (40_arithmetic.md R140). -/
inductive AluForm where
  | rr (n m : RegNum)
  | imm3 (n : RegNum) (d : BitVec 3)
  | ind (n : RegNum) (i : PtrNum)
  | regImm (r : ShortReg) (d : Word)
  | regMem (r : ShortReg) (a : Word)
  | memReg (a : Word) (r : ShortReg)
  deriving DecidableEq, Repr

/-- The destination of a form. -/
def AluForm.dst : AluForm → Loc
  | .rr n _ => .gpr n
  | .imm3 n _ => .gpr n
  | .ind n _ => .gpr n
  | .regImm r _ => .short r
  | .regMem r _ => .short r
  | .memReg a _ => .long a

/-- The source of a form. -/
def AluForm.src : AluForm → Src
  | .rr _ m => .loc (.gpr m)
  | .imm3 _ d => .imm (zext16 d)
  | .ind _ i => .loc (.ind (i.setWidth 4))
  | .regImm _ d => .imm d
  | .regMem _ a => .loc (.long a)
  | .memReg _ r => .loc (.short r)

/-- The length of a form in bytes. -/
def AluForm.len : AluForm → Word
  | .rr _ _ => 2#16
  | .imm3 _ _ => 2#16
  | .ind _ _ => 2#16
  | _ => 4#16

/-- ADD, ADDC, SUB, SUBC, AND, OR, XOR and their byte forms, in every form but `[Rwi+]`. -/
def aluInstr (op : AluOp) (w : Width) (f : AluForm) : Instr :=
  match op, w, f with
  | .add, .word, .rr n m => .addRwRw n m
  | .add, .word, .imm3 n d => .addRwImm3 n d
  | .add, .word, .ind n i => .addRwInd n i
  | .add, .word, .regImm r d => .addRegImm r d
  | .add, .word, .regMem r a => .addRegMem r a
  | .add, .word, .memReg a r => .addMemReg a r
  | .add, .byte, .rr n m => .addbRbRb n m
  | .add, .byte, .imm3 n d => .addbRbImm3 n d
  | .add, .byte, .ind n i => .addbRbInd n i
  | .add, .byte, .regImm r d => .addbRegImm r d
  | .add, .byte, .regMem r a => .addbRegMem r a
  | .add, .byte, .memReg a r => .addbMemReg a r
  | .addc, .word, .rr n m => .addcRwRw n m
  | .addc, .word, .imm3 n d => .addcRwImm3 n d
  | .addc, .word, .ind n i => .addcRwInd n i
  | .addc, .word, .regImm r d => .addcRegImm r d
  | .addc, .word, .regMem r a => .addcRegMem r a
  | .addc, .word, .memReg a r => .addcMemReg a r
  | .addc, .byte, .rr n m => .addcbRbRb n m
  | .addc, .byte, .imm3 n d => .addcbRbImm3 n d
  | .addc, .byte, .ind n i => .addcbRbInd n i
  | .addc, .byte, .regImm r d => .addcbRegImm r d
  | .addc, .byte, .regMem r a => .addcbRegMem r a
  | .addc, .byte, .memReg a r => .addcbMemReg a r
  | .sub, .word, .rr n m => .subRwRw n m
  | .sub, .word, .imm3 n d => .subRwImm3 n d
  | .sub, .word, .ind n i => .subRwInd n i
  | .sub, .word, .regImm r d => .subRegImm r d
  | .sub, .word, .regMem r a => .subRegMem r a
  | .sub, .word, .memReg a r => .subMemReg a r
  | .sub, .byte, .rr n m => .subbRbRb n m
  | .sub, .byte, .imm3 n d => .subbRbImm3 n d
  | .sub, .byte, .ind n i => .subbRbInd n i
  | .sub, .byte, .regImm r d => .subbRegImm r d
  | .sub, .byte, .regMem r a => .subbRegMem r a
  | .sub, .byte, .memReg a r => .subbMemReg a r
  | .subc, .word, .rr n m => .subcRwRw n m
  | .subc, .word, .imm3 n d => .subcRwImm3 n d
  | .subc, .word, .ind n i => .subcRwInd n i
  | .subc, .word, .regImm r d => .subcRegImm r d
  | .subc, .word, .regMem r a => .subcRegMem r a
  | .subc, .word, .memReg a r => .subcMemReg a r
  | .subc, .byte, .rr n m => .subcbRbRb n m
  | .subc, .byte, .imm3 n d => .subcbRbImm3 n d
  | .subc, .byte, .ind n i => .subcbRbInd n i
  | .subc, .byte, .regImm r d => .subcbRegImm r d
  | .subc, .byte, .regMem r a => .subcbRegMem r a
  | .subc, .byte, .memReg a r => .subcbMemReg a r
  | .and, .word, .rr n m => .andRwRw n m
  | .and, .word, .imm3 n d => .andRwImm3 n d
  | .and, .word, .ind n i => .andRwInd n i
  | .and, .word, .regImm r d => .andRegImm r d
  | .and, .word, .regMem r a => .andRegMem r a
  | .and, .word, .memReg a r => .andMemReg a r
  | .and, .byte, .rr n m => .andbRbRb n m
  | .and, .byte, .imm3 n d => .andbRbImm3 n d
  | .and, .byte, .ind n i => .andbRbInd n i
  | .and, .byte, .regImm r d => .andbRegImm r d
  | .and, .byte, .regMem r a => .andbRegMem r a
  | .and, .byte, .memReg a r => .andbMemReg a r
  | .or, .word, .rr n m => .orRwRw n m
  | .or, .word, .imm3 n d => .orRwImm3 n d
  | .or, .word, .ind n i => .orRwInd n i
  | .or, .word, .regImm r d => .orRegImm r d
  | .or, .word, .regMem r a => .orRegMem r a
  | .or, .word, .memReg a r => .orMemReg a r
  | .or, .byte, .rr n m => .orbRbRb n m
  | .or, .byte, .imm3 n d => .orbRbImm3 n d
  | .or, .byte, .ind n i => .orbRbInd n i
  | .or, .byte, .regImm r d => .orbRegImm r d
  | .or, .byte, .regMem r a => .orbRegMem r a
  | .or, .byte, .memReg a r => .orbMemReg a r
  | .xor, .word, .rr n m => .xorRwRw n m
  | .xor, .word, .imm3 n d => .xorRwImm3 n d
  | .xor, .word, .ind n i => .xorRwInd n i
  | .xor, .word, .regImm r d => .xorRegImm r d
  | .xor, .word, .regMem r a => .xorRegMem r a
  | .xor, .word, .memReg a r => .xorMemReg a r
  | .xor, .byte, .rr n m => .xorbRbRb n m
  | .xor, .byte, .imm3 n d => .xorbRbImm3 n d
  | .xor, .byte, .ind n i => .xorbRbInd n i
  | .xor, .byte, .regImm r d => .xorbRegImm r d
  | .xor, .byte, .regMem r a => .xorbRegMem r a
  | .xor, .byte, .memReg a r => .xorbMemReg a r

/-- The same instructions in the form `[Rwi+]`. -/
def aluIncInstr (op : AluOp) (w : Width) (n : RegNum) (i : PtrNum) : Instr :=
  match op, w with
  | .add, .word => .addRwInc n i
  | .add, .byte => .addbRbInc n i
  | .addc, .word => .addcRwInc n i
  | .addc, .byte => .addcbRbInc n i
  | .sub, .word => .subRwInc n i
  | .sub, .byte => .subbRbInc n i
  | .subc, .word => .subcRwInc n i
  | .subc, .byte => .subcbRbInc n i
  | .and, .word => .andRwInc n i
  | .and, .byte => .andbRbInc n i
  | .or, .word => .orRwInc n i
  | .or, .byte => .orbRbInc n i
  | .xor, .word => .xorRwInc n i
  | .xor, .byte => .xorbRbInc n i

/-- CMP and CMPB in the forms of ADD that write no memory (43_compare_loop.md R210): `mem, reg` does not exist. -/
def cmpInstr (w : Width) (f : AluForm) : Option Instr :=
  match w, f with
  | .word, .rr n m => some (.cmpRwRw n m)
  | .word, .imm3 n d => some (.cmpRwImm3 n d)
  | .word, .ind n i => some (.cmpRwInd n i)
  | .word, .regImm r d => some (.cmpRegImm r d)
  | .word, .regMem r a => some (.cmpRegMem r a)
  | .word, .memReg _ _ => none
  | .byte, .rr n m => some (.cmpbRbRb n m)
  | .byte, .imm3 n d => some (.cmpbRbImm3 n d)
  | .byte, .ind n i => some (.cmpbRbInd n i)
  | .byte, .regImm r d => some (.cmpbRegImm r d)
  | .byte, .regMem r a => some (.cmpbRegMem r a)
  | .byte, .memReg _ _ => none

/-- CMP and CMPB in the form `[Rwi+]`. -/
def cmpIncInstr (w : Width) (n : RegNum) (i : PtrNum) : Instr :=
  match w with
  | .byte => .cmpbRbInc n i
  | .word => .cmpRwInc n i

/-- The operand forms of MOV and MOVB without a pointer update (45_data_movement.md R231, R232). -/
inductive MoveForm where
  | rr (n m : RegNum)
  | imm4 (n : RegNum) (d : BitVec 4)
  | regImm (r : ShortReg) (d : Word)
  | load (n m : RegNum)
  | store (m n : RegNum)
  | indInd (n m : RegNum)
  | loadDisp (n m : RegNum) (d : Word)
  | storeDisp (m : RegNum) (d : Word) (n : RegNum)
  | indMem (n : RegNum) (a : Word)
  | memInd (a : Word) (n : RegNum)
  | regMem (r : ShortReg) (a : Word)
  | memReg (a : Word) (r : ShortReg)
  deriving DecidableEq, Repr

/-- The destination of a move form. -/
def MoveForm.dst : MoveForm → Loc
  | .rr n _ => .gpr n
  | .imm4 n _ => .gpr n
  | .regImm r _ => .short r
  | .load n _ => .gpr n
  | .store m _ => .ind m
  | .indInd n _ => .ind n
  | .loadDisp n _ _ => .gpr n
  | .storeDisp m d _ => .disp m d
  | .indMem n _ => .ind n
  | .memInd a _ => .long a
  | .regMem r _ => .short r
  | .memReg a _ => .long a

/-- The source of a move form. -/
def MoveForm.src : MoveForm → Src
  | .rr _ m => .loc (.gpr m)
  | .imm4 _ d => .imm (zext16 d)
  | .regImm _ d => .imm d
  | .load _ m => .loc (.ind m)
  | .store _ n => .loc (.gpr n)
  | .indInd _ m => .loc (.ind m)
  | .loadDisp _ m d => .loc (.disp m d)
  | .storeDisp _ _ n => .loc (.gpr n)
  | .indMem _ a => .loc (.long a)
  | .memInd _ n => .loc (.ind n)
  | .regMem _ a => .loc (.long a)
  | .memReg _ r => .loc (.short r)

/-- The length of a move form in bytes. -/
def MoveForm.len : MoveForm → Word
  | .rr _ _ => 2#16
  | .imm4 _ _ => 2#16
  | .load _ _ => 2#16
  | .store _ _ => 2#16
  | .indInd _ _ => 2#16
  | _ => 4#16

/-- MOV and MOVB without a pointer update. -/
def moveInstr (w : Width) (f : MoveForm) : Instr :=
  match w, f with
  | .word, .rr n m => .movRwRw n m
  | .word, .imm4 n d => .movRwImm4 n d
  | .word, .regImm r d => .movRegImm r d
  | .word, .load n m => .movRwInd n m
  | .word, .store m n => .movIndRw m n
  | .word, .indInd n m => .movIndInd n m
  | .word, .loadDisp n m d => .movRwDisp n m d
  | .word, .storeDisp m d n => .movDispRw m d n
  | .word, .indMem n a => .movIndMem n a
  | .word, .memInd a n => .movMemInd a n
  | .word, .regMem r a => .movRegMem r a
  | .word, .memReg a r => .movMemReg a r
  | .byte, .rr n m => .movbRbRb n m
  | .byte, .imm4 n d => .movbRbImm4 n d
  | .byte, .regImm r d => .movbRegImm r d
  | .byte, .load n m => .movbRbInd n m
  | .byte, .store m n => .movbIndRb m n
  | .byte, .indInd n m => .movbIndInd n m
  | .byte, .loadDisp n m d => .movbRbDisp n m d
  | .byte, .storeDisp m d n => .movbDispRb m d n
  | .byte, .indMem n a => .movbIndMem n a
  | .byte, .memInd a n => .movbMemInd a n
  | .byte, .regMem r a => .movbRegMem r a
  | .byte, .memReg a r => .movbMemReg a r

/-- `Rwn, [Rwm+]` and `Rbn, [Rwm+]` of MOV and MOVB. -/
def moveFromIncInstr (w : Width) (n m : RegNum) : Instr :=
  match w with
  | .byte => .movbRbInc n m
  | .word => .movRwInc n m

/-- `[-Rwm], Rwn` and `[-Rwm], Rbn` of MOV and MOVB. -/
def moveToDecInstr (w : Width) (m n : RegNum) : Instr :=
  match w with
  | .byte => .movbDecRb m n
  | .word => .movDecRw m n

/-- `[Rwn+], [Rwm]` of MOV and MOVB. -/
def moveIncIndInstr (w : Width) (n m : RegNum) : Instr :=
  match w with
  | .byte => .movbIncInd n m
  | .word => .movIncInd n m

/-- `[Rwn], [Rwm+]` of MOV and MOVB. -/
def moveIndIncInstr (w : Width) (n m : RegNum) : Instr :=
  match w with
  | .byte => .movbIndInc n m
  | .word => .movIndInc n m

/-- The operand forms of MOVBS and MOVBZ (45_data_movement.md R233, R234). -/
inductive ExtendForm where
  | rr (n m : RegNum)
  | regMem (r : ShortReg) (a : Word)
  | memReg (a : Word) (r : ShortReg)
  deriving DecidableEq, Repr

/-- The word destination of a form. -/
def ExtendForm.dst : ExtendForm → Loc
  | .rr n _ => .gpr n
  | .regMem r _ => .short r
  | .memReg a _ => .long a

/-- The byte source of a form. -/
def ExtendForm.src : ExtendForm → Loc
  | .rr _ m => .gpr m
  | .regMem _ a => .long a
  | .memReg _ r => .short r

/-- The length of a form in bytes. -/
def ExtendForm.len : ExtendForm → Word
  | .rr _ _ => 2#16
  | _ => 4#16

/-- CPL and CPLB. -/
def cplInstr (w : Width) (n : RegNum) : Instr :=
  match w with
  | .word => .cpl n
  | .byte => .cplb n

/-- NEG and NEGB. -/
def negInstr (w : Width) (n : RegNum) : Instr :=
  match w with
  | .word => .neg n
  | .byte => .negb n

/-- MOVBS and MOVBZ. -/
def extendInstr (x : Extend) (f : ExtendForm) : Instr :=
  match x, f with
  | .sign, .rr n m => .movbsRwRb n m
  | .sign, .regMem r a => .movbsRegMem r a
  | .sign, .memReg a r => .movbsMemReg a r
  | .zero, .rr n m => .movbzRwRb n m
  | .zero, .regMem r a => .movbzRegMem r a
  | .zero, .memReg a r => .movbzMemReg a r

/-- The shifts and rotates by a register. -/
def shiftRegInstr (kind : ShiftKind) (n m : RegNum) : Instr :=
  match kind with
  | .shl => .shlRwRw n m
  | .shr => .shrRwRw n m
  | .ashr => .ashrRwRw n m
  | .rol => .rolRwRw n m
  | .ror => .rorRwRw n m

/-- The shifts and rotates by an immediate. -/
def shiftImmInstr (kind : ShiftKind) (n : RegNum) (d : BitVec 4) : Instr :=
  match kind with
  | .shl => .shlRwImm4 n d
  | .shr => .shrRwImm4 n d
  | .ashr => .ashrRwImm4 n d
  | .rol => .rolRwImm4 n d
  | .ror => .rorRwImm4 n d

/-- The operand forms of CMPI1, CMPI2, CMPD1, CMPD2 (43_compare_loop.md R213). -/
inductive StepForm where
  | imm4 (d : BitVec 4)
  | imm16 (d : Word)
  | mem (a : Word)
  deriving DecidableEq, Repr

/-- The second operand of a form. -/
def StepForm.src : StepForm → Src
  | .imm4 d => .imm (zext16 d)
  | .imm16 d => .imm d
  | .mem a => .loc (.long a)

/-- The length of a form in bytes. -/
def StepForm.len : StepForm → Word
  | .imm4 _ => 2#16
  | _ => 4#16

/-- The four compare-and-step instructions. -/
inductive StepKind where
  | i1 | i2 | d1 | d2
  deriving DecidableEq, Repr

/-- What is added to the register (43_compare_loop.md R213 to R216). -/
def StepKind.amount : StepKind → Word
  | .i1 => 0x0001#16
  | .i2 => 0x0002#16
  | .d1 => 0xFFFF#16
  | .d2 => 0xFFFE#16

/-- CMPI1, CMPI2, CMPD1, CMPD2. -/
def stepInstr (k : StepKind) (n : RegNum) (f : StepForm) : Instr :=
  match k, f with
  | .i1, .imm4 d => .cmpi1RwImm4 n d
  | .i1, .imm16 d => .cmpi1RwImm16 n d
  | .i1, .mem a => .cmpi1RwMem n a
  | .i2, .imm4 d => .cmpi2RwImm4 n d
  | .i2, .imm16 d => .cmpi2RwImm16 n d
  | .i2, .mem a => .cmpi2RwMem n a
  | .d1, .imm4 d => .cmpd1RwImm4 n d
  | .d1, .imm16 d => .cmpd1RwImm16 n d
  | .d1, .mem a => .cmpd1RwMem n a
  | .d2, .imm4 d => .cmpd2RwImm4 n d
  | .d2, .imm16 d => .cmpd2RwImm16 n d
  | .d2, .mem a => .cmpd2RwMem n a

/-- The DIV family. -/
def divInstr (kind : DivKind) (n : RegNum) : Instr :=
  match kind with
  | .div => .div n
  | .divu => .divu n
  | .divl => .divl n
  | .divlu => .divlu n

/-- BAND, BOR, BXOR. -/
def bitLogicInstr (op : BitOp) (zz : BitOff) (z : BitPos) (qq : BitOff) (q : BitPos) : Instr :=
  match op with
  | .and => .band zz z qq q
  | .or => .bor zz z qq q
  | .xor => .bxor zz z qq q

/-- The EXT* instructions with an immediate or no operand, with the ESFR mode and the override they set
(48_system_control.md R330). -/
inductive ExtForm where
  | extr
  | extp (p : PageNum)
  | extpr (p : PageNum)
  | exts (g : SegNum)
  | extsr (g : SegNum)
  deriving DecidableEq, Repr

/-- The instruction of a form. -/
def ExtForm.instr : ExtForm → SeqLen → Instr
  | .extr, k => .extr k
  | .extp p, k => .extpPag p k
  | .extpr p, k => .extprPag p k
  | .exts g, k => .extsSeg g k
  | .extsr g, k => .extsrSeg g k

/-- Its length in bytes. -/
def ExtForm.len : ExtForm → Word
  | .extr => 2#16
  | _ => 4#16

/-- Whether it sets the ESFR mode (48_system_control.md R330). -/
def ExtForm.esfr : ExtForm → Bool
  | .extr => true
  | .extp _ => false
  | .extpr _ => true
  | .exts _ => false
  | .extsr _ => true

/-- The override it sets (48_system_control.md R330). -/
def ExtForm.ovr : ExtForm → Override
  | .extr => .none
  | .extp p => .page p
  | .extpr p => .page p
  | .exts g => .seg g
  | .extsr g => .seg g

/-- The EXT* instructions with a register operand: which instruction, by its override and ESFR mode. -/
def extRegInstr (seg esfr : Bool) (m : RegNum) (k : SeqLen) : Instr :=
  match seg, esfr with
  | false, false => .extpRw m k
  | false, true => .extprRw m k
  | true, false => .extsRw m k
  | true, true => .extsrRw m k

/-- The override a register operand gives: its low 10 bits as a page or its low 8 bits as a segment
(48_system_control.md R333, R335). -/
def regOverride (seg : Bool) (v : Word) : Override :=
  if seg then .seg (v.extractLsb' 0 8) else .page (v.extractLsb' 0 10)

/-- The fourteen undefined opcodes (30_encoding.md R113). -/
def undefinedInstrs : List Instr :=
    [.undef3B, .undef44, .undef45, .undef85, .undef8B, .undef8C, .undef95, .undefC1, .undefC7, .undefE3, .undefE5,
    .undefF5, .undefF8, .undefF9]

/-- The six MAC opcodes (48_system_control.md R346). -/
def macInstrs : List Instr :=
  [.coxxx83, .coxxx93, .coxxxA3, .costoreB3, .costoreC3, .comovD3]

/-- The protected opcodes with bytes 1 to 3 (48_system_control.md R320). -/
def protFaultInstrs (b1 b2 b3 : Byte) : List Instr :=
    [.protFault87 b1 b2 b3, .protFault97 b1 b2 b3, .protFaultA7 b1 b2 b3, .protFaultA5 b1 b2 b3, .protFaultB5 b1 b2
    b3, .protFaultB7 b1 b2 b3]

end Sys2Proof.Machine
end

