-- ==== Sys2Proof/Certificates/Slice0/Obligations.lean ====
section
/-!
DEFINITION. The statements for the provers, one `def Obligations.<Name> : Prop` each. They use the terms of Safety.lean:
`operandLoc`, `gprLoc`, `bitLoc` for the address of an operand, `sourceVal`, `gprVal`, `bitWordVal`, `peek` for the
value read, `poke` for the state a store to an address leaves, `pokeLoc` and `pokePtr` for a store to an operand and to a
pointer, `pushed` and `popped` for the stack, `entered` for a trap entry. In each, `s.ip + 2#16` or `s.ip + 4#16` is IPnext (10_state.md R27).
-/

open Sys2Proof Sys2Proof.Machine

/-! Encoding -/

/-- 30_encoding.md R100 to R118: decoding the bytes of a well-formed instruction gives it back, and what follows. -/
def Obligations.DecodeInvertsEncode : Prop :=
  ∀ (i : Instr) (rest : List Byte), i.wf = true → decodeBytes (encode i ++ rest) = some (.instr i, rest)

/-- 30_encoding.md R103 to R110: words written out from the encoding tables decode to the instruction they stand for. -/
def Obligations.DecodeSanityWords : Prop :=
  decode 0x00#8 0x12#8 0#8 0#8 = .instr (.addRwRw 1#4 2#4) ∧
  decode 0x08#8 0x35#8 0#8 0#8 = .instr (.addRwImm3 3#4 5#3) ∧
  decode 0x08#8 0x3A#8 0#8 0#8 = .instr (.addRwInd 3#4 2#2) ∧
  decode 0x08#8 0x3E#8 0#8 0#8 = .instr (.addRwInc 3#4 2#2) ∧
  decode 0x4A#8 0xF1#8 0xF2#8 0x3C#8 = .instr (.bmov 0xF2#8 12#4 0xF1#8 3#4) ∧
  decode 0xE0#8 0x5A#8 0#8 0#8 = .instr (.movRwImm4 10#4 5#4) ∧
  decode 0xD0#8 0x21#8 0#8 0#8 = .instr (.movbsRwRb 1#4 2#4) ∧
  decode 0xFA#8 0x01#8 0x00#8 0x20#8 = .instr (.jmps 1#8 0x2000#16) ∧
  decode 0x9B#8 0x20#8 0#8 0#8 = .instr (.trap 0x10#7) ∧
  decode 0xD7#8 0x40#8 0x03#8 0x00#8 = .instr (.extpPag 3#10 0#2) ∧
  decode 0xB7#8 0x48#8 0xB7#8 0xB7#8 = .instr .srst ∧
  decode 0xB7#8 0x48#8 0xB7#8 0xB6#8 = .instr (.protFaultB7 0x48#8 0xB7#8 0xB6#8) ∧
  decode 0x3B#8 0x00#8 0#8 0#8 = .instr .undef3B

/-! The machine as a whole -/

/-- Every step keeps the invariant of Safety.lean. -/
def Obligations.StepKeepsInvariant : Prop :=
  ∀ s t : State, Inv s → step s = .next t → Inv t

/-- The state after reset satisfies the invariant. -/
def Obligations.ResetSatisfiesInvariant : Prop := Inv State.reset

/-- The values of 10_state.md R50 after reset, and the identity mapping of long addresses (R36). The values other than
those of DPP0 to DPP3 are the family's, which the spec's parameter RESET_VALUES takes by default
(notes/assumptions/2.md). -/
def Obligations.ResetValues : Prop :=
  (∀ r, readCpuReg r State.reset =
    match r with
    | .dpp0 => 0#16
    | .dpp1 => 1#16
    | .dpp2 => 2#16
    | .dpp3 => 3#16
    | .cp => 0xFC00#16
    | .sp => 0xFC00#16
    | .stkov => 0xFA00#16
    | .stkun => 0xFC00#16
    | .ones => 0xFFFF#16
    | _ => 0#16) ∧
  (∀ r, resetReg State.reset.par r = readCpuReg r State.reset) ∧
  State.reset.ip = 0#16 ∧ State.reset.extCount = 0 ∧ State.reset.extEsfr = false ∧ State.reset.extOvr = .none ∧
  State.reset.run = .running ∧ State.reset.initDone = false ∧ State.reset.wdtEnabled = true ∧
  State.reset.wdtLocked = false ∧ State.reset.mem = [] ∧
  ∀ a : Word, dataAddr a State.reset = .ok (a.setWidth 24) State.reset

/-- A step at which the environment delivers nothing, no trap or interrupt is taken and the run does not end runs the
instruction whose bytes stand at CSP:IP, then counts the sequence (10_state.md R27, 20_memory.md R80,
48_system_control.md R337, 60_exceptions.md R366). A state whose register bank is odd or crosses FFFFh is refused
(10_state.md R34; that its boundary refuses it is DEDUCED: notes/assumptions/25.md). -/
def Obligations.StepRunsDecodedInstruction : Prop :=
  ∀ (i : Instr) (s : State), s.inputs = [] → s.run = .running →
    (isOdd s.cp = true ∨ 0xFFFF < s.cp.toNat + 31 → step s = .refused .badContextPointer) ∧
    (isOdd s.cp = false → s.cp.toNat + 31 ≤ 0xFFFF → s.retrapB = false → isOdd s.ip = false →
      (s.extCount ≠ 0 ∨
        (highestClassA s = none ∧ arbitrate s = none ∧ s.par.endAddr ≠ some (codeAddr s 0#16))) →
      CodeAt s i →
      step s = afterInstr i (decide (s.extCount ≠ 0))
        (exec i (shiftHazards
          { (if s.extCount = 0 then afterArbitration s else s) with arbHist := ageHistory s.arbHist })))

/-- Inside a sequence an instruction that begins none counts it down by one, and the addressing modes end with it; one
that begins a sequence is not counted; outside nothing changes (48_system_control.md R337). -/
def Obligations.SequenceCounts : Prop :=
  ∀ (i : Instr) (u : State),
    afterInstr i false (.next u) = .next u ∧
    (startsSequence i = true → afterInstr i true (.next u) = .next u) ∧
    (startsSequence i = false → u.extCount = 1 →
      afterInstr i true (.next u) = .next { u with extCount := 0, extEsfr := false, extOvr := .none }) ∧
    (startsSequence i = false → 2 ≤ u.extCount →
      ∃ t, afterInstr i true (.next u) = .next t ∧ t.extCount + 1 = u.extCount ∧ t.extEsfr = u.extEsfr ∧
        t.extOvr = u.extOvr ∧ t.mem = u.mem ∧ t.ip = u.ip)

/-! Addresses, memory and registers -/

/-- 20_memory.md R61: word GPR n lies at (CP) + 2n and byte GPR n at (CP) + n, without overflow; R62: `reg` names an
(E)SFR at its base + 2*reg or a GPR; R64: `bitoff` names a word of RAM, of the (E)SFR area, or a GPR. A GPR right after
a write of CP is refused (70_reset_and_hazards.md R400), and so is every use of one in an odd or overflowing bank: that
is the model's inference from 10_state.md R34 (DEDUCED, notes/assumptions/25.md). -/
def Obligations.ShortAddresses : Prop :=
  ∀ (s : State) (w : Width) (n : RegNum) (b : BitVec 8),
    (s.hazIn.cp = true → gprAddr w n s = .refused .hazardCp) ∧
    (s.hazIn.cp = false → isOdd s.cp = true ∨ 0xFFFF < s.cp.toNat + 31 →
      gprAddr w n s = .refused .badContextPointer) ∧
    (s.hazIn.cp = false → isOdd s.cp = false → s.cp.toNat + 31 ≤ 0xFFFF →
      (∃ d : Addr, gprAddr .word n s = .ok d s ∧ d.toNat = s.cp.toNat + 2 * n.toNat) ∧
      ∃ d : Addr, gprAddr .byte n s = .ok d s ∧ d.toNat = s.cp.toNat + n.toNat) ∧
    (b.toNat ≤ 0xEF → ∃ d : Addr, shortAddr w b s = .ok d s ∧
      d.toNat = (if s.extEsfr then 0xF000 else 0xFE00) + 2 * b.toNat) ∧
    (0xF0 ≤ b.toNat → shortAddr w b s = gprAddr w (b.extractLsb' 0 4) s) ∧
    (b.toNat ≤ 0x7F → ∃ d : Addr, bitWordAddr b s = .ok d s ∧ d.toNat = 0xFD00 + 2 * b.toNat) ∧
    (0x80 ≤ b.toNat → b.toNat ≤ 0xEF → ∃ d : Addr, bitWordAddr b s = .ok d s ∧
      d.toNat = (if s.extEsfr then 0xF100 else 0xFF00) + 2 * (b.toNat - 0x80)) ∧
    (0xF0 ≤ b.toNat → bitWordAddr b s = gprAddr .word (b.extractLsb' 0 4) s)

/-- 20_memory.md R66: a long address goes through the DPP that its bits 15:14 select, or through the page or the segment
in force. Through a DPP that the instruction just before wrote it is refused (70_reset_and_hazards.md R401, decision
D15). -/
def Obligations.LongAddresses : Prop :=
  ∀ (s : State) (a : Word) (dpp : BitVec 10) (written : Bool),
    (dpp, written) = (if a.toNat < 0x4000 then (s.dpp0, s.hazIn.dpp0) else if a.toNat < 0x8000 then (s.dpp1, s.hazIn.dpp1)
      else if a.toNat < 0xC000 then (s.dpp2, s.hazIn.dpp2) else (s.dpp3, s.hazIn.dpp3)) →
    (s.extOvr = .none → written = false →
      ∃ d : Addr, dataAddr a s = .ok d s ∧ d.toNat = dpp.toNat * 0x4000 + a.toNat % 0x4000) ∧
    (s.extOvr = .none → written = true → dataAddr a s = .refused .hazardDpp) ∧
    (∀ p, s.extOvr = .page p →
      ∃ d : Addr, dataAddr a s = .ok d s ∧ d.toNat = p.toNat * 0x4000 + a.toNat % 0x4000) ∧
    (∀ g, s.extOvr = .seg g → ∃ d : Addr, dataAddr a s = .ok d s ∧ d.toNat = g.toNat * 0x10000 + a.toNat)

/-- Plain memory: a value stored is read back at both widths, low byte at the lower address, and no byte outside the
access changes (20_memory.md R78, R79, R81). A store of an instruction that touches a byte the pipeline may have fetched
is refused (70_reset_and_hazards.md R405, 20_memory.md R91; that the window wraps with the segment is a DESIGN CHOICE:
notes/assumptions/13.md). -/
def Obligations.StoreThenLoad : Prop :=
  ∀ (route : ByteRoute) (w : Width) (s : State) (nx : Word) (a : Addr) (v : BitVec w.bits),
    (∀ u, place s a = .ram → pokeBy route w s nx a v = some u →
      peek w u a = some v ∧ (∀ b, ¬ touches w a b → byteAt u b = byteAt s b) ∧
      (w = .word → byteAt u a = (v.setWidth 16).extractLsb' 0 8 ∧
        byteAt u (a + 1) = (v.setWidth 16).extractLsb' 8 8)) ∧
    ((w = .word → isOdd a = false) →
      (∃ b, touches w a b ∧ b.extractLsb' 16 8 = s.csp ∧ (b.extractLsb' 0 16 - nx).toNat < s.par.prefetchWindow) →
      storeBy route w nx a v s = .refused (.codeWindow a.toNat))

/-- What a CPU register reads after a word or a byte is stored to its address, and that no other register changes:
reserved bits, the read-only registers, and the byte not addressed, which a byte written through `reg` below F0h clears,
and in the PSW one written by an address, but no byte GPR that CP puts there, named by `Rb` or by `reg` from F0h
(10_state.md R22, R26, R30, R31, R34 to R40; 20_memory.md R62, R63, R83; 40_arithmetic.md R161; the model's readings of
R79 and R31 beside R22 are those of notes/assumptions/8.md); which later uses the write makes hazardous
(70_reset_and_hazards.md R400 to R404); and the writes refused: SYSCON after EINIT (R404), a TFR flag that was 0
(60_exceptions.md R354). The masks are those of the default layouts of PSW_LAYOUT, TRAP_TABLE and CP_FIXED_MASK
(notes/assumptions/2.md). -/
def Obligations.RegisterWrites : Prop :=
  pswMask PswLayout.default = 0xFC7F#16 ∧ tfrMask TrapTable.default = 0xE08F#16 ∧
  CpFixedMask.default = ⟨0xF000#16, 0x0001#16⟩ ∧
  ∀ (r : CpuReg) (s : State), s.par.Legal →
    (∀ (u : State) (nx v x : Word) (b : Byte),
      ((poke .word s nx (sfrAddr s.par.sfr r) v = some u ∧ x = v) ∨
        (poke .byte s nx (sfrAddr s.par.sfr r) b = some u ∧
          x = (if r = .psw then 0#8 else (readCpuReg r s).extractLsb' 8 8) ++ b) ∨
        (poke .byte s nx (sfrAddr s.par.sfr r + 1) b = some u ∧
          x = b ++ (if r = .psw then 0#8 else (readCpuReg r s).extractLsb' 0 8)) ∨
        (∃ rr : ShortReg, rr.toNat < 0xF0 ∧ pokeLoc .byte (.short rr) s nx (sfrAddr s.par.sfr r) b = some u ∧
          x = b.setWidth 16) ∨
        (∃ l : Loc, ((∃ n, l = .gpr n) ∨ ∃ rr : ShortReg, 0xF0 ≤ rr.toNat ∧ l = .short rr) ∧
          ((pokeLoc .byte l s nx (sfrAddr s.par.sfr r) b = some u ∧ x = (readCpuReg r s).extractLsb' 8 8 ++ b) ∨
            (pokeLoc .byte l s nx (sfrAddr s.par.sfr r + 1) b = some u ∧
              x = b ++ (readCpuReg r s).extractLsb' 0 8)))) →
      (∀ q, q ≠ r → readCpuReg q u = readCpuReg q s) ∧ u.mem = s.mem ∧
      readCpuReg r u =
        (match r with
        | .dpp0 => x &&& 0x03FF#16
        | .dpp1 => x &&& 0x03FF#16
        | .dpp2 => x &&& 0x03FF#16
        | .dpp3 => x &&& 0x03FF#16
        | .csp => s.csp.setWidth 16
        | .cp => (x ||| s.par.cpFixed.ones) &&& ~~~s.par.cpFixed.zeros
        | .sp => x &&& 0xFFFE#16
        | .psw => x &&& pswMask s.par.psw
        | .tfr => x &&& tfrMask s.par.traps
        | .zeros => 0x0000#16
        | .ones => 0xFFFF#16
        | _ => x) ∧
      u.hazOut =
        { cp := s.hazOut.cp || decide (r = .cp)
          sp := s.hazOut.sp || decide (r = .sp)
          syscon := s.hazOut.syscon || decide (r = .syscon)
          dpp0 := s.hazOut.dpp0 || decide (r = .dpp0)
          dpp1 := s.hazOut.dpp1 || decide (r = .dpp1)
          dpp2 := s.hazOut.dpp2 || decide (r = .dpp2)
          dpp3 := s.hazOut.dpp3 || decide (r = .dpp3) }) ∧
    ∀ v : Word, beyondBits s (sfrAddr s.par.sfr r) = false →
      (r = .syscon → s.initDone = true → storeWord (sfrAddr s.par.sfr r) v s = .refused .sysconLocked) ∧
      (r = .tfr → v &&& tfrMask s.par.traps &&& ~~~s.tfr ≠ 0#16 →
        storeWord (sfrAddr s.par.sfr r) v s = .refused .trapFlagSet)

/-! Arithmetic and logic -/

/-- ADD, ADDB, ADDC, ADDCB: the sum modulo 2^W and the flags of 40_arithmetic.md R141; an instruction whose destination
is the PSW sets no flag (10_state.md R31). -/
def Obligations.AddResult : Prop :=
  ∀ (carry : Bool) (w : Width) (f : AluForm) (s u : State) (a b r : BitVec w.bits) (d : Addr) (cin : Nat),
    cin = (if carry = true ∧ s.flags.c = true then 1 else 0) →
    sourceVal w s f.src = some b → operandLoc w s f.dst = some d → peek w s d = some a →
    r = BitVec.ofNat w.bits (a.toNat + b.toNat + cin) →
    pokeLoc w f.dst s (s.ip + f.len) d r = some u →
    exec (aluInstr (if carry then .addc else .add) w f) s = .next
      { (if evenAddr d = s.par.sfr.psw then u
        else setFlags
          { e := decide (b = BitVec.intMin w.bits)
            z := decide (r = 0) && (!carry || s.flags.z)
            v := decide (a.toInt + b.toInt + cin < -(2 : Int) ^ (w.bits - 1)) ||
              decide ((2 : Int) ^ (w.bits - 1) ≤ a.toInt + b.toInt + cin)
            c := decide (2 ^ w.bits ≤ a.toNat + b.toNat + cin)
            n := r.msb } u) with
        ip := s.ip + f.len }

/-- SUB, SUBB, SUBC, SUBCB: the difference modulo 2^W and the flags of 40_arithmetic.md R142, C being the borrow; an
instruction whose destination is the PSW sets no flag (10_state.md R31). CMP and CMPB set the flags of a subtraction
without carry. -/
def Obligations.SubResult : Prop :=
  ∀ (carry : Bool) (w : Width) (f : AluForm) (s : State) (a b r : BitVec w.bits) (cin : Nat) (g : Flags),
    cin = (if carry = true ∧ s.flags.c = true then 1 else 0) →
    r = a - b - BitVec.ofNat w.bits cin →
    g =
      { e := decide (b = BitVec.intMin w.bits)
        z := decide (r = 0) && (!carry || s.flags.z)
        v := decide (a.toInt - b.toInt - cin < -(2 : Int) ^ (w.bits - 1)) ||
          decide ((2 : Int) ^ (w.bits - 1) ≤ a.toInt - b.toInt - cin)
        c := decide (a.toNat < b.toNat + cin)
        n := r.msb } →
    sourceVal w s f.src = some b →
    (∀ (d : Addr) (u : State), operandLoc w s f.dst = some d → peek w s d = some a →
      pokeLoc w f.dst s (s.ip + f.len) d r = some u →
      exec (aluInstr (if carry then .subc else .sub) w f) s = .next
        { (if evenAddr d = s.par.sfr.psw then u else setFlags g u) with ip := s.ip + f.len }) ∧
    (∀ i : Instr, carry = false → cmpInstr w f = some i → sourceVal w s (.loc f.dst) = some a →
      exec i s = .next { setFlags g s with ip := s.ip + f.len })

/-- AND, OR, XOR and their byte forms: the result and the flags of 41_logical.md R180. -/
def Obligations.LogicResult : Prop :=
  ∀ (op : AluOp) (w : Width) (f : AluForm) (s u : State) (a b r : BitVec w.bits) (d : Addr),
    (op = .and ∧ r = a &&& b) ∨ (op = .or ∧ r = a ||| b) ∨ (op = .xor ∧ r = a ^^^ b) →
    sourceVal w s f.src = some b → operandLoc w s f.dst = some d → peek w s d = some a →
    pokeLoc w f.dst s (s.ip + f.len) d r = some u →
    exec (aluInstr op w f) s = .next
      { (if evenAddr d = s.par.sfr.psw then u
        else setFlags ⟨decide (b = BitVec.intMin w.bits), decide (r = 0), false, false, r.msb⟩ u) with
        ip := s.ip + f.len }

/-- The form `[Rwi+]` of the seven two-operand instructions: the operation, its flags, then the pointer that was read,
incremented by the width and written to its register as that then lies (40_arithmetic.md R140, 20_memory.md R69,
10_state.md R24; DEDUCED where the two tables differ: notes/assumptions/12.md). -/
def Obligations.PostIncrementResult : Prop :=
  ∀ (op : AluOp) (w : Width) (n : RegNum) (i : PtrNum) (s u t : State) (a b : BitVec w.bits) (p : Word) (q d : Addr),
    clashes w n (i.setWidth 4) = false → gprVal .word s (i.setWidth 4) = some p → longLoc s p = some q →
    peek w s q = some b → gprLoc w s n = some d → peek w s d = some a →
    pokeLoc w (.gpr n) s (s.ip + 2#16) d (aluResult op s.flags a b) = some u →
    pokePtr (setFlagsFor d (aluFlags op s.flags a b) u) (s.ip + 2#16) (i.setWidth 4)
      (p + match w with
        | .byte => 1#16
        | .word => 2#16) = some t →
    exec (aluIncInstr op w n i) s = .next { t with ip := s.ip + 2#16 }

/-- CPL, CPLB, NEG, NEGB (40_arithmetic.md R151 to R154). -/
def Obligations.ComplementNegateResult : Prop :=
  ∀ (w : Width) (n : RegNum) (s u : State) (a : BitVec w.bits) (d : Addr),
    gprLoc w s n = some d → peek w s d = some a →
    (pokeLoc w (.gpr n) s (s.ip + 2#16) d (~~~a) = some u →
      exec (cplInstr w n) s = .next
        { setFlagsFor d ⟨decide (a = BitVec.intMin w.bits), decide (~~~a = 0), false, false, (~~~a).msb⟩ u with
          ip := s.ip + 2#16 }) ∧
    (pokeLoc w (.gpr n) s (s.ip + 2#16) d (-a) = some u →
      exec (negInstr w n) s = .next
        { setFlagsFor d
            ⟨decide (a = BitVec.intMin w.bits), decide (-a = 0), decide (a = BitVec.intMin w.bits), decide (a ≠ 0),
              (-a).msb⟩ u with
          ip := s.ip + 2#16 })

/-- MUL and MULU: MDH and MDL hold the 32-bit product, whose flags are set (40_arithmetic.md R155, R156). A MULIP bit
that software set stays (DESIGN CHOICE: notes/assumptions/29.md). -/
def Obligations.MultiplyResult : Prop :=
  ∀ (signed : Bool) (n m : RegNum) (s : State) (a b : Word) (p : BitVec 32),
    gprVal .word s n = some a → gprVal .word s m = some b →
    p = (if signed then a.signExtend 32 * b.signExtend 32 else a.setWidth 32 * b.setWidth 32) →
    exec (if signed then .mul n m else .mulu n m) s = .next
      { setFlags
          { e := false
            z := decide (p = 0)
            v := if signed then decide (p.toInt < -32768) || decide (32767 < p.toInt) else decide (0xFFFF < p.toNat)
            c := false
            n := p.msb }
          { s with mdh := p.extractLsb' 16 16, mdl := p.extractLsb' 0 16 } with
        ip := s.ip + 2#16 }

/-- DIV, DIVL, DIVU, DIVLU without overflow: MDL holds the quotient, truncated toward zero unless the parameter SDIV
says otherwise, and MDH the remainder (40_arithmetic.md R157 to R160; the other rounding of SDIV and a MULIP bit that
stays are a DESIGN CHOICE, notes/assumptions/37.md and 29.md). -/
def Obligations.DivideResult : Prop :=
  ∀ (long : Bool) (n : RegNum) (s : State) (d : Word), gprVal .word s n = some d → d ≠ 0 →
    (∀ a q r : Int, a = (if long then (s.mdh ++ s.mdl).toInt else s.mdl.toInt) →
      (s.par.sdiv = .towardZero ∧ q = a.tdiv d.toInt ∧ r = a.tmod d.toInt ∨
        s.par.sdiv = .down ∧ q = a.fdiv d.toInt ∧ r = a.fmod d.toInt) →
      -32768 ≤ q → q ≤ 32767 →
      exec (if long then .divl n else .div n) s = .next
        { setFlags ⟨false, decide (q = 0), false, false, decide (q < 0)⟩
            { s with mdl := BitVec.ofInt 16 q, mdh := BitVec.ofInt 16 r } with
          ip := s.ip + 2#16 }) ∧
    (∀ a : Nat, a = (if long then (s.mdh ++ s.mdl).toNat else s.mdl.toNat) → a / d.toNat ≤ 0xFFFF →
      exec (if long then .divlu n else .divu n) s = .next
        { setFlags ⟨false, decide (a / d.toNat = 0), false, false, decide (0x8000 ≤ a / d.toNat)⟩
            { s with mdl := BitVec.ofNat 16 (a / d.toNat), mdh := BitVec.ofNat 16 (a % d.toNat) } with
          ip := s.ip + 2#16 })

/-- A division by zero or one whose quotient does not fit completes with V = 1 and E and C 0; MDL, MDH, Z and N are
unspecified, and nothing else of the machine changes (40_arithmetic.md R157 to R161; DESIGN CHOICE as in
DivideResult). -/
def Obligations.DivideOverflow : Prop :=
  ∀ (kind : DivKind) (n : RegNum) (s : State) (d : Word) (a q : Int), gprVal .word s n = some d →
    a = (match kind with
      | .div => s.mdl.toInt
      | .divl => (s.mdh ++ s.mdl).toInt
      | .divu => (s.mdl.toNat : Int)
      | .divlu => ((s.mdh ++ s.mdl).toNat : Int)) →
    q = (match s.par.sdiv with
      | .towardZero => a.tdiv d.toInt
      | .down => a.fdiv d.toInt) →
    (d = 0 ∨ (kind = .div ∨ kind = .divl) ∧ (q < -32768 ∨ 32767 < q) ∨
      kind = .divlu ∧ 0xFFFF < a / (d.toNat : Int)) →
    ∃ (x y : Word) (z neg : Bool) (k : Nat),
      exec (divInstr kind n) s = .next
        { setFlags ⟨false, z, true, false, neg⟩ { s with mdl := x, mdh := y, draws := k } with ip := s.ip + 2#16 }

/-- The forms that the spec has the model refuse: a pointer that is also the data operand (20_memory.md R71,
45_data_movement.md R230). -/
def Obligations.SameRegisterRefused : Prop :=
  ∀ (op : AluOp) (w : Width) (n m : RegNum) (i : PtrNum) (s : State),
    ((match w with
      | .word => n.toNat
      | .byte => n.toNat / 2) = i.toNat →
      exec (aluIncInstr op w n i) s = .refused .sameRegister ∧
      exec (cmpIncInstr w n i) s = .refused .sameRegister) ∧
    ((match w with
      | .word => n.toNat
      | .byte => n.toNat / 2) = m.toNat →
      exec (moveFromIncInstr w n m) s = .refused .sameRegister ∧
      exec (moveToDecInstr w m n) s = .refused .sameRegister) ∧
    (n = m →
      exec (moveIncIndInstr w n m) s = .refused .sameRegister ∧
      exec (moveIndIncInstr w n m) s = .refused .sameRegister)

/-! Bits -/

/-- BSET and BCLR: one bit of the word is written, and the flags give its old value (42_boolean_bit.md R192, R199,
R202). -/
def Obligations.BitSetClearResult : Prop :=
  ∀ (v : Bool) (qq : BitOff) (q : BitPos) (s u : State) (a : Addr) (x y : Word),
    bitLoc s qq = some a → peek .word s a = some x →
    (∀ k < 16, y.getLsbD k = if k = q.toNat then v else x.getLsbD k) →
    poke .word s (s.ip + 2#16) a y = some u →
    exec (if v then .bset qq q else .bclr qq q) s = .next
      { setFlagsFor a ⟨false, !x.getLsbD q.toNat, false, false, x.getLsbD q.toNat⟩ u with ip := s.ip + 2#16 }

/-- BMOV and BMOVN: the source bit, or its complement, is written to the destination bit; the flags give the source bit
(42_boolean_bit.md R196, R197, R202). -/
def Obligations.BitMoveResult : Prop :=
  ∀ (negated : Bool) (zz qq : BitOff) (z q : BitPos) (s u : State) (a : Addr) (x y src : Word) (b : Bool),
    bitWordVal s qq = some src → b = src.getLsbD q.toNat → bitLoc s zz = some a → peek .word s a = some x →
    (∀ k < 16, y.getLsbD k = if k = z.toNat then b != negated else x.getLsbD k) →
    poke .word s (s.ip + 4#16) a y = some u →
    exec (if negated then .bmovn zz z qq q else .bmov zz z qq q) s = .next
      { setFlagsFor a ⟨false, !b, false, false, b⟩ u with ip := s.ip + 4#16 }

/-- BAND, BOR, BXOR write the function of the two bits; these and BCMP set Z NOR, V OR, C AND, N XOR of them
(42_boolean_bit.md R191, R193, R198, R200). -/
def Obligations.BitLogicResult : Prop :=
  ∀ (zz qq : BitOff) (z q : BitPos) (s : State) (a : Addr) (x src : Word) (d b : Bool),
    bitWordVal s qq = some src → b = src.getLsbD q.toNat → bitLoc s zz = some a → peek .word s a = some x →
    d = x.getLsbD z.toNat →
    (∀ (op : BitOp) (u : State) (y : Word),
      (∀ k < 16, y.getLsbD k =
        if k = z.toNat then
          match op with
          | .and => d && b
          | .or => d || b
          | .xor => d != b
        else x.getLsbD k) →
      poke .word s (s.ip + 4#16) a y = some u →
      exec (bitLogicInstr op zz z qq q) s = .next
        { setFlagsFor a ⟨false, !(d || b), d || b, d && b, d != b⟩ u with ip := s.ip + 4#16 }) ∧
    exec (.bcmp zz z qq q) s = .next
      { setFlags ⟨false, !(d || b), d || b, d && b, d != b⟩ s with ip := s.ip + 4#16 }

/-- BFLDL and BFLDH: the masked byte is cleared, the data byte ORed in whole, the other byte kept; Z and N look at the
whole word (42_boolean_bit.md R194, R195). -/
def Obligations.BitFieldResult : Prop :=
  ∀ (qq : BitOff) (mask d : Byte) (s u : State) (a : Addr) (x y : Word),
    bitLoc s qq = some a → peek .word s a = some x → poke .word s (s.ip + 4#16) a y = some u →
    (y = x.extractLsb' 8 8 ++ (x.extractLsb' 0 8 &&& ~~~mask ||| d) →
      exec (.bfldl qq mask d) s = .next
        { setFlagsFor a ⟨false, decide (y = 0), false, false, y.msb⟩ u with ip := s.ip + 4#16 }) ∧
    (y = (x.extractLsb' 8 8 &&& ~~~mask ||| d) ++ x.extractLsb' 0 8 →
      exec (.bfldh qq mask d) s = .next
        { setFlagsFor a ⟨false, decide (y = 0), false, false, y.msb⟩ u with ip := s.ip + 4#16 })

/-! Compare -/

/-- CMP and CMPB set the flags of op1 - op2 and write nothing but the incremented pointer of `[Rwi+]`
(43_compare_loop.md R210 to R212). -/
def Obligations.CompareResult : Prop :=
  ∀ (w : Width) (s : State) (a b : BitVec w.bits),
    (∀ (f : AluForm) (i : Instr), cmpInstr w f = some i → sourceVal w s f.src = some b →
      sourceVal w s (.loc f.dst) = some a →
      exec i s = .next { setFlags (subFlags a b false true) s with ip := s.ip + f.len }) ∧
    (∀ (n : RegNum) (k : PtrNum) (p : Word) (q : Addr) (t : State), clashes w n (k.setWidth 4) = false →
      gprVal .word s (k.setWidth 4) = some p → longLoc s p = some q →
      peek w s q = some b → gprVal w s n = some a →
      pokePtr (setFlags (subFlags a b false true) s) (s.ip + 2#16) (k.setWidth 4)
        (p + match w with
          | .byte => 1#16
          | .word => 2#16) = some t →
      exec (cmpIncInstr w n k) s = .next { t with ip := s.ip + 2#16 })

/-- CMPI1, CMPI2, CMPD1, CMPD2: the flags compare the register before it is stepped (43_compare_loop.md R213 to
R216). -/
def Obligations.CompareStepResult : Prop :=
  ∀ (k : StepKind) (n : RegNum) (f : StepForm) (s u : State) (a b : Word) (d : Addr),
    sourceVal .word s f.src = some b → gprLoc .word s n = some d → peek .word s d = some a →
    poke .word (setFlagsFor d (subFlags a b false true) s) (s.ip + f.len) d (a + k.amount) = some u →
    exec (stepInstr k n f) s = .next { u with ip := s.ip + f.len }

/-- After a comparison or a subtraction of a and b the relational conditions say how a and b compare (43_compare_loop.md
R211, 10_state.md R32). -/
def Obligations.CompareThenCondition : Prop :=
  ∀ (w : Width) (s t : State) (a b : BitVec w.bits), s.par.Legal → t = setFlags (subFlags a b false true) s →
    (condHolds .z t.flags = true ↔ a = b) ∧ (condHolds .nz t.flags = true ↔ a ≠ b) ∧
    (condHolds .c t.flags = true ↔ a.toNat < b.toNat) ∧ (condHolds .nc t.flags = true ↔ b.toNat ≤ a.toNat) ∧
    (condHolds .ugt t.flags = true ↔ b.toNat < a.toNat) ∧ (condHolds .ule t.flags = true ↔ a.toNat ≤ b.toNat) ∧
    (condHolds .slt t.flags = true ↔ a.toInt < b.toInt) ∧ (condHolds .sge t.flags = true ↔ b.toInt ≤ a.toInt) ∧
    (condHolds .sgt t.flags = true ↔ b.toInt < a.toInt) ∧ (condHolds .sle t.flags = true ↔ a.toInt ≤ b.toInt) ∧
    (condHolds .net t.flags = true ↔ a ≠ b ∧ b ≠ BitVec.intMin w.bits)

/-- The bits of N, C, V, Z and E in the PSW by the default layout (10_state.md R30; the layout is the family's,
notes/assumptions/2.md), read and written, and the sixteen condition codes and their tests (R32). -/
def Obligations.ConditionTable : Prop :=
  ∀ s : State,
    (s.par.psw = PswLayout.default →
      s.flags.n = s.psw.getLsbD 0 ∧ s.flags.c = s.psw.getLsbD 1 ∧ s.flags.v = s.psw.getLsbD 2 ∧
      s.flags.z = s.psw.getLsbD 3 ∧ s.flags.e = s.psw.getLsbD 4 ∧
      ∀ f : Flags, ∀ k < 16, (setFlags f s).psw.getLsbD k =
        match k with
        | 0 => f.n
        | 1 => f.c
        | 2 => f.v
        | 3 => f.z
        | 4 => f.e
        | _ => s.psw.getLsbD k) ∧
    ∀ n c v z e : Bool, s.flags = ⟨e, z, v, c, n⟩ →
      condHolds (condOf 0x0#4) s.flags = true ∧
      (condHolds (condOf 0x1#4) s.flags = true ↔ (z || e) = false) ∧
      (condHolds (condOf 0x2#4) s.flags = true ↔ z = true) ∧
      (condHolds (condOf 0x3#4) s.flags = true ↔ z = false) ∧
      (condHolds (condOf 0x4#4) s.flags = true ↔ v = true) ∧
      (condHolds (condOf 0x5#4) s.flags = true ↔ v = false) ∧
      (condHolds (condOf 0x6#4) s.flags = true ↔ n = true) ∧
      (condHolds (condOf 0x7#4) s.flags = true ↔ n = false) ∧
      (condHolds (condOf 0x8#4) s.flags = true ↔ c = true) ∧
      (condHolds (condOf 0x9#4) s.flags = true ↔ c = false) ∧
      (condHolds (condOf 0xA#4) s.flags = true ↔ (z || (n != v)) = false) ∧
      (condHolds (condOf 0xB#4) s.flags = true ↔ (z || (n != v)) = true) ∧
      (condHolds (condOf 0xC#4) s.flags = true ↔ (n != v) = true) ∧
      (condHolds (condOf 0xD#4) s.flags = true ↔ (n != v) = false) ∧
      (condHolds (condOf 0xE#4) s.flags = true ↔ (z || c) = false) ∧
      (condHolds (condOf 0xF#4) s.flags = true ↔ (z || c) = true)

/-! Shifts -/

/-- The shifts and rotates by a register (its low four bits) and by an immediate (44_prioritize_shift.md R220, R222 to
R226). -/
def Obligations.ShiftResult : Prop :=
  ∀ (kind : ShiftKind) (n : RegNum) (c : BitVec 4) (s u : State) (d : Addr) (a : Word),
    gprLoc .word s n = some d → peek .word s d = some a →
    poke .word s (s.ip + 2#16) d (shiftResult kind a c.toNat) = some u →
    exec (shiftImmInstr kind n c) s = .next
      { setFlagsFor d (shiftFlags kind a c.toNat) u with ip := s.ip + 2#16 } ∧
    ∀ (m : RegNum) (x : Word), gprVal .word s m = some x → x.toNat % 16 = c.toNat →
      exec (shiftRegInstr kind n m) s = .next
        { setFlagsFor d (shiftFlags kind a c.toNat) u with ip := s.ip + 2#16 }

/-- A shift by `c + 1` is a shift by `c` followed by a one-bit step, whose carry is the carry of the whole; V collects
every bit shifted out before the last (44_prioritize_shift.md R220, R226). E is 0, Z and N look at the result, for every
count up to 15. -/
def Obligations.ShiftIsRepeatedStep : Prop :=
  ∀ (kind : ShiftKind) (a : Word),
    shiftResult kind a 0 = a ∧ (shiftFlags kind a 0).c = false ∧ (shiftFlags kind a 0).v = false ∧
    (∀ k < 16, (shiftResult kind a 1).getLsbD k =
      match kind with
      | .shl => decide (k ≠ 0) && a.getLsbD (k - 1)
      | .shr => decide (k ≠ 15) && a.getLsbD (k + 1)
      | .ashr => a.getLsbD (if k = 15 then 15 else k + 1)
      | .rol => a.getLsbD (if k = 0 then 15 else k - 1)
      | .ror => a.getLsbD (if k = 15 then 0 else k + 1)) ∧
    ((shiftFlags kind a 1).c =
      match kind with
      | .shl => a.getLsbD 15
      | .rol => a.getLsbD 15
      | _ => a.getLsbD 0) ∧
    (∀ c < 15, shiftResult kind a (c + 1) = shiftResult kind (shiftResult kind a c) 1 ∧
      (shiftFlags kind a (c + 1)).c = (shiftFlags kind (shiftResult kind a c) 1).c ∧
      ((shiftFlags kind a (c + 1)).v =
        match kind with
        | .shl => false
        | .rol => false
        | _ => (shiftFlags kind a c).v || (shiftFlags kind a c).c)) ∧
    ∀ c ≤ 15, (shiftFlags kind a c).e = false ∧ (shiftFlags kind a c).z = decide (shiftResult kind a c = 0) ∧
      (shiftFlags kind a c).n = (shiftResult kind a c).getLsbD 15

/-- PRIOR: the number of left shifts that bring the most significant 1 of Rwm into bit 15, 0 for a zero operand
(44_prioritize_shift.md R221). -/
def Obligations.PrioritizeResult : Prop :=
  ∀ (n m : RegNum) (s u : State) (x y : Word) (d : Addr), gprVal .word s m = some x → gprLoc .word s n = some d →
    (x = 0 ∧ y = 0 ∨ x ≠ 0 ∧ y.toNat ≤ 15 ∧ x.toNat * 2 ^ y.toNat < 0x10000 ∧ 0x8000 ≤ x.toNat * 2 ^ y.toNat) →
    poke .word s (s.ip + 2#16) d y = some u →
    exec (.prior n m) s = .next { setFlagsFor d ⟨false, decide (x = 0), false, false, false⟩ u with ip := s.ip + 2#16 }

/-! Moves -/

/-- MOV and MOVB in the forms without a pointer update: the value moved, E, Z and N from it, V and C kept
(45_data_movement.md R230 to R232). -/
def Obligations.MoveResult : Prop :=
  ∀ (w : Width) (f : MoveForm) (s u : State) (v : BitVec w.bits) (d : Addr),
    sourceVal w s f.src = some v → operandLoc w s f.dst = some d → pokeLoc w f.dst s (s.ip + f.len) d v = some u →
    exec (moveInstr w f) s = .next
      { setFlagsFor d
          ⟨decide (v = BitVec.intMin w.bits), decide (v = 0), u.flags.v, u.flags.c, v.msb⟩ u with
        ip := s.ip + f.len }

/-- MOV and MOVB with a pointer update: `[Rwm+]` as source, `[-Rwm]` and `[Rwn+]` as destination, `[Rwn], [Rwm+]`. The
pointer is decremented before the store and incremented after it, and written to its register as that then lies; a
pre-decrement store goes to the decremented value, not to what the register then reads (45_data_movement.md R230 to
R232, 20_memory.md R69, 10_state.md R24; DEDUCED where the tables differ: notes/assumptions/12.md). -/
def Obligations.MovePointerResult : Prop :=
  ∀ (w : Width) (n m : RegNum) (s u t : State) (v : BitVec w.bits) (p step : Word) (q d : Addr),
    step = (match w with
      | .byte => 1#16
      | .word => 2#16) →
    (clashes w n m = false → gprVal .word s m = some p → longLoc s p = some q → peek w s q = some v →
      gprLoc w s n = some d → pokeLoc w (.gpr n) s (s.ip + 2#16) d v = some u →
      pokePtr (setFlagsFor d (moveFlags u.flags v) u) (s.ip + 2#16) m (p + step) = some t →
      exec (moveFromIncInstr w n m) s = .next { t with ip := s.ip + 2#16 }) ∧
    (clashes w n m = false → gprVal w s n = some v → gprVal .word s m = some p →
      pokePtr s (s.ip + 2#16) m (p - step) = some u → longLoc u (p - step) = some d →
      poke w u (s.ip + 2#16) d v = some t →
      exec (moveToDecInstr w m n) s = .next { setFlagsFor d (moveFlags t.flags v) t with ip := s.ip + 2#16 }) ∧
    (n ≠ m → sourceVal w s (.loc (.ind m)) = some v → gprVal .word s n = some p → longLoc s p = some d →
      poke w s (s.ip + 2#16) d v = some u →
      pokePtr (setFlagsFor d (moveFlags u.flags v) u) (s.ip + 2#16) n (p + step) = some t →
      exec (moveIncIndInstr w n m) s = .next { t with ip := s.ip + 2#16 }) ∧
    (n ≠ m → gprVal .word s m = some p → longLoc s p = some q → peek w s q = some v →
      operandLoc w s (.ind n) = some d → poke w s (s.ip + 2#16) d v = some u →
      pokePtr (setFlagsFor d (moveFlags u.flags v) u) (s.ip + 2#16) m (p + step) = some t →
      exec (moveIndIncInstr w n m) s = .next { t with ip := s.ip + 2#16 })

/-- MOVBS and MOVBZ: the byte extended to a word, E 0, Z of the byte, N its top bit or 0, V and C kept
(45_data_movement.md R233, R234). -/
def Obligations.ExtendResult : Prop :=
  ∀ (f : ExtendForm) (s u : State) (v : Byte) (d : Addr),
    sourceVal .byte s (.loc f.src) = some v → operandLoc .word s f.dst = some d →
    (poke .word s (s.ip + f.len) d (v.signExtend 16) = some u →
      exec (extendInstr .sign f) s = .next
        { setFlagsFor d ⟨false, decide (v = 0), u.flags.v, u.flags.c, v.msb⟩ u with ip := s.ip + f.len }) ∧
    (poke .word s (s.ip + f.len) d (v.setWidth 16) = some u →
      exec (extendInstr .zero f) s = .next
        { setFlagsFor d ⟨false, decide (v = 0), u.flags.v, u.flags.c, false⟩ u with ip := s.ip + f.len })

/-! Jumps and calls -/

/-- JMPR, JMPA, JMPI and JMPS: the target if the condition holds, else IPnext; no flag and nothing else changes
(46_jump_call.md R271, R279 to R282). That JMPI without its condition goes on right after a write of CP too, using no
GPR in the sense of 70_reset_and_hazards.md R400, is the model's reading (DEDUCED, notes/assumptions/14.md). -/
def Obligations.JumpResult : Prop :=
  ∀ (cc : Cond) (rel : Rel) (a : Word) (n : RegNum) (seg : SegNum) (s : State),
    (condHolds cc s.flags = true →
      exec (.jmpr cc rel) s = .next { s with ip := BitVec.ofInt 16 (s.ip.toNat + 2 + 2 * rel.toInt) } ∧
      exec (.jmpa cc a) s = .next { s with ip := a } ∧
      ∀ x, gprVal .word s n = some x → exec (.jmpi cc n) s = .next { s with ip := x }) ∧
    (condHolds cc s.flags = false →
      exec (.jmpr cc rel) s = .next { s with ip := s.ip + 2#16 } ∧
      exec (.jmpa cc a) s = .next { s with ip := s.ip + 4#16 } ∧
      exec (.jmpi cc n) s = .next { s with ip := s.ip + 2#16 }) ∧
    exec (.jmps seg a) s = .next { s with csp := seg, ip := a }

/-- The target of a relative branch: IPnext plus twice the signed displacement modulo 2^16, 256 bytes back to 254 ahead;
a displacement of -1 in a 2-byte branch and of -2 in a 4-byte one names the branch itself (46_jump_call.md R271). -/
def Obligations.RelativeTarget : Prop :=
  ∀ (nx : Word) (rel : Rel),
    relTarget nx rel = BitVec.ofInt 16 (nx.toNat + 2 * rel.toInt) ∧ -256 ≤ 2 * rel.toInt ∧ 2 * rel.toInt ≤ 254 ∧
    (∀ (cc : Cond) (s : State), condHolds cc s.flags = true → exec (.jmpr cc 0xFF#8) s = .next s) ∧
    (∀ (qq : BitOff) (q : BitPos) (s : State) (x : Word), bitWordVal s qq = some x → x.getLsbD q.toNat = true →
      exec (.jb qq q 0xFE#8) s = .next s)

/-- JB and JNB test a bit; JBC and JNBS also complement it when they jump, and give its old value in the flags whether
or not they jump (46_jump_call.md R277, R278, R283, R284). -/
def Obligations.JumpBitResult : Prop :=
  ∀ (tested : Bool) (qq : BitOff) (q : BitPos) (rel : Rel) (s : State) (a : Addr) (x target : Word),
    bitLoc s qq = some a → peek .word s a = some x → target = BitVec.ofInt 16 (s.ip.toNat + 4 + 2 * rel.toInt) →
    (x.getLsbD q.toNat = tested →
      exec (if tested then .jb qq q rel else .jnb qq q rel) s = .next { s with ip := target } ∧
      ∀ (y : Word) (u : State), (∀ k < 16, y.getLsbD k = if k = q.toNat then !tested else x.getLsbD k) →
        poke .word (setFlagsFor a ⟨false, !tested, false, false, tested⟩ s) (s.ip + 4#16) a y = some u →
        exec (if tested then .jbc qq q rel else .jnbs qq q rel) s = .next { u with ip := target }) ∧
    (x.getLsbD q.toNat = !tested →
      exec (if tested then .jb qq q rel else .jnb qq q rel) s = .next { s with ip := s.ip + 4#16 } ∧
      exec (if tested then .jbc qq q rel else .jnbs qq q rel) s = .next
        { setFlags ⟨false, tested, false, false, !tested⟩ s with ip := s.ip + 4#16 })

/-- CALLA, CALLI and CALLR push IPnext and go to the target; without the condition CALLA and CALLI go on
(46_jump_call.md R273 to R275), right after a write of SP or CP too: that such a call uses neither SP nor a GPR in the
sense of 70_reset_and_hazards.md R400 and R402 is the model's reading (DEDUCED, notes/assumptions/14.md). -/
def Obligations.CallNearResult : Prop :=
  ∀ (cc : Cond) (a : Word) (n : RegNum) (rel : Rel) (s u : State),
    (condHolds cc s.flags = true →
      (pushed s (s.ip + 4#16) (s.ip + 4#16) = some u → exec (.calla cc a) s = .next { u with ip := a }) ∧
      (∀ x, gprVal .word s n = some x → pushed s (s.ip + 2#16) (s.ip + 2#16) = some u →
        exec (.calli cc n) s = .next { u with ip := x })) ∧
    (condHolds cc s.flags = false →
      exec (.calla cc a) s = .next { s with ip := s.ip + 4#16 } ∧
      exec (.calli cc n) s = .next { s with ip := s.ip + 2#16 }) ∧
    (pushed s (s.ip + 2#16) (s.ip + 2#16) = some u →
      exec (.callr rel) s = .next { u with ip := BitVec.ofInt 16 (s.ip.toNat + 2 + 2 * rel.toInt) })

/-- CALLS pushes CSP, then IPnext; PCALL pushes the register, then IPnext, and sets E, Z, N from the register
(46_jump_call.md R276, R285). -/
def Obligations.CallSegmentResult : Prop :=
  ∀ (seg : SegNum) (r : ShortReg) (a v : Word) (s u t : State), pushed u (s.ip + 4#16) (s.ip + 4#16) = some t →
    (pushed s (s.ip + 4#16) (s.csp.setWidth 16) = some u →
      exec (.calls seg a) s = .next { t with csp := seg, ip := a }) ∧
    (sourceVal .word s (.loc (.short r)) = some v → pushed s (s.ip + 4#16) v = some u →
      exec (.pcall r a) s = .next
        { setFlags ⟨decide (v = 0x8000#16), decide (v = 0), t.flags.v, t.flags.c, v.msb⟩ t with ip := a })

/-- TRAP pushes the PSW, CSP while SGTDIS is 0, and IPnext; IP is four times the number, CSP 0 while SGTDIS is 0; PSW,
TFR and the sequence are as they were (46_jump_call.md R286, 60_exceptions.md R363). SGTDIS is that of the state after
the push of the PSW. Right after a write of SYSCON it is refused (70_reset_and_hazards.md R404). -/
def Obligations.TrapInstruction : Prop :=
  ∀ (n : TrapNum) (s : State), (s.hazIn.syscon = true → exec (.trap n) s = .refused .hazardSyscon) ∧
    (s.hazIn.syscon = false → ∀ s1 s2 s3 : State, pushed s (s.ip + 2#16) s.psw = some s1 →
      pushed s2 (s.ip + 2#16) (s.ip + 2#16) = some s3 →
      (s1.syscon.getLsbD 11 = false → pushed s1 (s.ip + 2#16) (s1.csp.setWidth 16) = some s2 →
        exec (.trap n) s = .next
          { s3 with csp := 0#8, ip := BitVec.ofNat 16 (4 * n.toNat), frames := .software :: s3.frames }) ∧
      (s1.syscon.getLsbD 11 = true → s2 = s1 →
        exec (.trap n) s = .next { s3 with ip := BitVec.ofNat 16 (4 * n.toNat), frames := .software :: s3.frames }))

/-! The stack and returns -/

/-- PUSH reads the register first; POP writes it after SP; E, Z, N from the value, V and C kept (47_stack_return.md
R301, R302). -/
def Obligations.PushPopResult : Prop :=
  ∀ (r : ShortReg) (s u : State) (v : Word),
    (sourceVal .word s (.loc (.short r)) = some v → pushed s (s.ip + 2#16) v = some u →
      exec (.push r) s = .next
        { setFlags ⟨decide (v = 0x8000#16), decide (v = 0), u.flags.v, u.flags.c, v.msb⟩ u with
          ip := s.ip + 2#16 }) ∧
    (∀ (d : Addr) (t : State), popped s = some (v, u) → shortLoc .word u r = some d →
      poke .word u (s.ip + 2#16) d v = some t →
      exec (.pop r) s = .next
        { setFlagsFor d ⟨decide (v = 0x8000#16), decide (v = 0), t.flags.v, t.flags.c, v.msb⟩ t with
          ip := s.ip + 2#16 })

/-- SCXT pushes the old register value and writes the new one; no flag changes (47_stack_return.md R303). -/
def Obligations.SwitchContextResult : Prop :=
  ∀ (r : ShortReg) (a x v : Word) (s u t : State) (d : Addr),
    sourceVal .word s (.loc (.short r)) = some v → pushed s (s.ip + 4#16) v = some u →
    shortLoc .word u r = some d → poke .word u (s.ip + 4#16) d x = some t →
    exec (.scxtRegImm r x) s = .next { t with ip := s.ip + 4#16 } ∧
    (sourceVal .word s (.loc (.long a)) = some x →
      exec (.scxtRegMem r a) s = .next { t with ip := s.ip + 4#16 })

/-- RET pops IP; RETS pops IP and CSP; RETP pops IP and the register (47_stack_return.md R304, R306, R307). -/
def Obligations.ReturnResult : Prop :=
  ∀ (r : ShortReg) (x v : Word) (s s1 s2 : State), popped s = some (x, s1) →
    exec .ret s = .next { s1 with ip := x } ∧
    (popped s1 = some (v, s2) →
      exec .rets s = .next { s2 with csp := v.setWidth 8, ip := x } ∧
      ∀ (d : Addr) (t : State), shortLoc .word s2 r = some d → poke .word s2 (s.ip + 2#16) d v = some t →
        exec (.retp r) s = .next
          { setFlagsFor d ⟨decide (v = 0x8000#16), decide (v = 0), t.flags.v, t.flags.c, v.msb⟩ t with ip := x })

/-- RETI pops IP, CSP while SGTDIS is 0, and the whole PSW, CSP being written before the PSW is popped, and changes
nothing else but SP (and TFR where STACK_LIMITS is on) (47_stack_return.md R305, 60_exceptions.md R364); right after a
write of SYSCON it is refused (70_reset_and_hazards.md R404). `leaveFrame` is the model's record that the service
routine has ended: it changes no register and no memory, and a trap routine that returns with its flag still set in TFR
becomes pending again (60_exceptions.md R354; how the model knows which routine returns is a DESIGN CHOICE,
notes/assumptions/16.md); a class B routine is then entered at the next boundary. That a class A trap still pending with
its flag cleared does not stop the entry is the model's choice (DESIGN CHOICE, notes/assumptions/39.md). -/
def Obligations.ReturnFromInterrupt : Prop :=
  (∀ s : State, s.hazIn.syscon = true → exec .reti s = .refused .hazardSyscon) ∧
  (∀ (x p : Word) (s s1 s2 s3 : State), s.hazIn.syscon = false → popped s = some (x, s1) →
    (s1.syscon.getLsbD 11 = false ∧ (∃ c u, popped s1 = some (c, u) ∧ s2 = { u with csp := c.setWidth 8 }) ∨
      s1.syscon.getLsbD 11 = true ∧ s2 = s1) →
    popped s2 = some (p, s3) →
    exec .reti s = .next { leaveFrame { s3 with psw := p &&& pswMask s3.par.psw } with ip := x }) ∧
  (∀ s : State, leaveFrame s =
    { s with
      frames := s.frames.tail
      pendNmi := s.pendNmi || s.frames.head? == some (.classA .nmi) && s.tfr.getLsbD s.par.traps.nmiBit
      pendStkof := s.pendStkof || s.frames.head? == some (.classA .stkof) && s.tfr.getLsbD s.par.traps.stkofBit
      pendStkuf := s.pendStkuf || s.frames.head? == some (.classA .stkuf) && s.tfr.getLsbD s.par.traps.stkufBit
      retrapB := s.retrapB ||
        s.frames.head? == some .classB && decide (s.tfr &&& classBFlags s.par.traps ≠ 0#16) }) ∧
  (∀ s t : State, NoDevices s → exec .reti s = .next t → t.frames = s.frames.tail →
    FrameExcept (atReg s .psw :: atReg s .csp :: stackRegs s) s
      { t with
        pendNmi := s.pendNmi, pendStkof := s.pendStkof, pendStkuf := s.pendStkuf, retrapB := s.retrapB }) ∧
  ∀ s u : State, s.inputs = [] → s.run = .running → bankOk s.cp = true → s.retrapB = true →
    s.tfr &&& classAFlags s.par.traps = 0#16 →
    entered { s with extCount := 0, extEsfr := false, extOvr := .none, retrapB := false } .classB s.par.traps.classB
      15#4 s.ip = some u →
    step s = .next u

/-- What a push stores in plain memory the next pop reads, and SP is where it was (20_memory.md R74, 46_jump_call.md
R287). A push that leaves SP below STKOV completes, sets TFR.STKOF and makes the request pending while STACK_LIMITS is
on, and is refused while it is off; a pop that leaves SP above STKUN the same for STKUF (60_exceptions.md R358; the bits
are those of TRAP_TABLE, 14 and 13 by default). Right after an explicit write of SP both are refused
(70_reset_and_hazards.md R402). -/
def Obligations.PushThenPop : Prop :=
  (∀ (s u : State) (nx v : Word), place s (near (s.sp - 2#16)) = .ram → ¬ s.stkun < s.sp →
    pushed s nx v = some u →
    u.sp = s.sp - 2#16 ∧ popped u = some (v, { u with sp := s.sp }) ∧
    ∀ a, a ≠ near (s.sp - 2#16) → a ≠ near (s.sp - 2#16) + 1 → byteAt u a = byteAt s a) ∧
  (∀ (s t : State) (nx v : Word), s.hazIn.sp = false →
    poke .word { s with sp := s.sp - 2#16 } nx (near (s.sp - 2#16)) v = some t →
    (¬ t.sp < t.stkov → push nx v s = .ok () t) ∧
    (t.sp < t.stkov → t.par.stackLimits = true →
      push nx v s = .ok () { t with tfr := t.tfr ||| bitAt t.par.traps.stkofBit, pendStkof := true }) ∧
    (t.sp < t.stkov → t.par.stackLimits = false → push nx v s = .refused .stackOverflow)) ∧
  (∀ (s : State) (v : Word), s.hazIn.sp = false → peek .word s (near s.sp) = some v →
    (¬ s.stkun < s.sp + 2#16 → pop s = .ok v { s with sp := s.sp + 2#16 }) ∧
    (s.stkun < s.sp + 2#16 → s.par.stackLimits = true →
      pop s = .ok v
        { s with sp := s.sp + 2#16, tfr := s.tfr ||| bitAt s.par.traps.stkufBit, pendStkuf := true }) ∧
    (s.stkun < s.sp + 2#16 → s.par.stackLimits = false → pop s = .refused .stackUnderflow)) ∧
  bitAt TrapTable.default.stkofBit = 0x4000#16 ∧ bitAt TrapTable.default.stkufBit = 0x2000#16 ∧
  ∀ (s : State) (nx v : Word), s.hazIn.sp = true → push nx v s = .refused .hazardSp ∧ pop s = .refused .hazardSp

/-! System instructions and sequences -/

/-- NOP, SRVWDT, DISWDT, EINIT, PWRDN and IDLE (48_system_control.md R322 to R327): each advances IP and does this and
nothing else. IDLE inside a sequence is refused, as R337 says. -/
def Obligations.SystemEffects : Prop :=
  ∀ s : State,
    exec .nop s = .next { s with ip := s.ip + 2#16 } ∧
    exec .srvwdt s = .next { s with wdtLocked := true, events := .wdtService :: s.events, ip := s.ip + 4#16 } ∧
    exec .diswdt s = .next
      { s with wdtEnabled := if s.wdtLocked then s.wdtEnabled else false, ip := s.ip + 4#16 } ∧
    (s.initDone = false → exec .einit s = .next
      { s with initDone := true, wdtLocked := true, events := .rstoutHigh :: s.events, ip := s.ip + 4#16 }) ∧
    (s.initDone = true → exec .einit s = .next { s with initDone := true, wdtLocked := true, ip := s.ip + 4#16 }) ∧
    (s.nmiPinLow = true → exec .pwrdn s = .next { s with run := .powerdown, ip := s.ip + 4#16 }) ∧
    (s.nmiPinLow = false → exec .pwrdn s = .next { s with ip := s.ip + 4#16 }) ∧
    (s.extCount = 0 → exec .idle s = .next { s with run := .idle, ip := s.ip + 4#16 }) ∧
    (s.extCount ≠ 0 → exec .idle s = .refused .idleInSequence)

/-- SRST, a reset from outside and, while the watchdog is enabled, a watchdog reset outside power-down: every register
and the sequence take the reset value, no request is pending and every interrupt control register is 0, memory keeps its
bytes, execution goes on at the reset value of IP, 00'0000h by default (48_system_control.md R321,
70_reset_and_hazards.md R390 to R392, 10_state.md R43, R50, 60_exceptions.md R365, R373, R374). A reset in a group of
events discards the rest of the group (DESIGN CHOICE: notes/assumptions/21.md), so memory, requests and inputs are as
said whatever stands beside it. The value of SYSCON is the model's (DESIGN CHOICE: notes/assumptions/3.md). That a
watchdog reset can come is the model's choice (DESIGN CHOICE, notes/assumptions/38.md): 60_exceptions.md R373 allows it,
decision D26 has none. -/
def Obligations.ResetTransition : Prop :=
  ∀ s : State,
    (∃ t, exec .srst s = .next t ∧ (∀ r, readCpuReg r t = resetReg s.par r) ∧ t.ip = s.par.reset.ip ∧ t.mem = s.mem ∧
      t.extCount = 0 ∧ t.extEsfr = false ∧ t.extOvr = .none ∧ t.run = .running ∧ t.initDone = false ∧
      t.wdtEnabled = true ∧ t.wdtLocked = false ∧ t.pendNmi = false ∧ t.pendStkof = false ∧ t.pendStkuf = false ∧
      t.retrapB = false ∧ ∀ q ∈ t.irqs, q.ic = 0#8) ∧
    (∀ (evs : List EnvEvent) (rest : List (List EnvEvent)), s.inputs = evs :: rest →
      EnvEvent.reset ∈ evs ∨ EnvEvent.watchdogReset ∈ evs ∧ s.wdtEnabled = true ∧ s.run ≠ .powerdown →
      ∃ t, step s = .next t ∧ (∀ r, readCpuReg r t = resetReg s.par r) ∧ t.ip = s.par.reset.ip ∧ t.mem = s.mem ∧
        t.extCount = 0 ∧ t.extEsfr = false ∧ t.extOvr = .none ∧ t.run = .running ∧ t.initDone = false ∧
        t.wdtEnabled = true ∧ t.wdtLocked = false ∧ t.pendNmi = false ∧ t.pendStkof = false ∧ t.pendStkuf = false ∧
        t.retrapB = false ∧ (∀ q ∈ t.irqs, q.ic = 0#8) ∧ t.inputs = rest)

/-- ATOMIC and the EXT* instructions with an immediate: the counter is loaded and the modes of 48_system_control.md R330
installed; an EXT* that leaves a mode in force unset is refused (R331 to R338). That EXTR inside an EXTR sequence is not
is a DESIGN CHOICE: notes/assumptions/35.md. -/
def Obligations.SequenceBegins : Prop :=
  ∀ (f : ExtForm) (k : SeqLen) (s : State),
    exec (.atomic k) s = .next { s with extCount := k.toNat + 1, ip := s.ip + 2#16 } ∧
    (s.extCount = 0 ∨ ((s.extEsfr = true → f.esfr = true) ∧ (s.extOvr ≠ .none → f.ovr ≠ .none)) →
      exec (f.instr k) s = .next
        { s with extCount := k.toNat + 1, extEsfr := f.esfr, extOvr := f.ovr, ip := s.ip + f.len }) ∧
    (s.extCount ≠ 0 → (s.extEsfr = true ∧ f.esfr = false) ∨ (s.extOvr ≠ .none ∧ f.ovr = .none) →
      exec (f.instr k) s = .refused .nestedExtend)

/-- The EXT* instructions with a register: its low 10 bits are the page, or its low 8 the segment (48_system_control.md
R333 to R336). -/
def Obligations.SequenceByRegister : Prop :=
  ∀ (seg esfr : Bool) (m : RegNum) (k : SeqLen) (s : State) (x : Word), gprVal .word s m = some x →
    (s.extCount = 0 ∨ s.extEsfr = false ∨ esfr = true →
      exec (extRegInstr seg esfr m k) s = .next
        { s with
          extCount := k.toNat + 1
          extEsfr := esfr
          extOvr := if seg then .seg (x.setWidth 8) else .page (x.setWidth 10)
          ip := s.ip + 2#16 }) ∧
    (s.extCount ≠ 0 → s.extEsfr = true → esfr = false →
      exec (extRegInstr seg esfr m k) s = .refused .nestedExtend)

/-! Traps and interrupts -/

/-- What a class B trap leaves, its stack being plain memory: the old PSW, CSP and the return address stacked, the level
15, the rest of the PSW kept, the sequence ended, the vector of class B (60_exceptions.md R351, R362;
48_system_control.md R338); and the numbers and bits of TRAP_TABLE by default (R351, R354), which put it at 00'0028h.
That a class A trap still pending with its flag cleared does not stop the entry is the model's choice (DESIGN CHOICE,
notes/assumptions/39.md). -/
def Obligations.TrapFrameLayout : Prop :=
  (∀ (s u : State) (k : ClassB) (ret : Word), s.syscon.getLsbD 11 = false → enteredB s k ret = some u →
    place s (near (s.sp - 2#16)) = .ram → place s (near (s.sp - 4#16)) = .ram → place s (near (s.sp - 6#16)) = .ram →
    u.sp = s.sp - 6#16 ∧ peek .word u (near (s.sp - 2#16)) = some s.psw ∧
    peek .word u (near (s.sp - 4#16)) = some (s.csp.setWidth 16) ∧ peek .word u (near (s.sp - 6#16)) = some ret ∧
    u.ip.toNat = 4 * s.par.traps.classB.toNat ∧ u.csp = 0#8 ∧
    pswIlvl s.par.psw u.psw = 15#4 ∧
    u.psw &&& ~~~(ilvlMask s.par.psw) = s.psw &&& ~~~(ilvlMask s.par.psw) ∧
    (s.par.psw = PswLayout.default → u.psw = 0xF#4 ++ s.psw.extractLsb' 0 12) ∧
    u.tfr &&& ~~~(bitAt s.par.traps.stkofBit) =
      (s.tfr ||| classBFlag s.par.traps k) &&& ~~~(bitAt s.par.traps.stkofBit) ∧
    u.extCount = 0 ∧ u.extEsfr = false ∧ u.extOvr = .none ∧ u.run = .running ∧
    u.cp = s.cp ∧ u.mdl = s.mdl ∧ u.mdh = s.mdh ∧
    u.dpp0 = s.dpp0 ∧ u.dpp1 = s.dpp1 ∧ u.dpp2 = s.dpp2 ∧ u.dpp3 = s.dpp3) ∧
  4 * TrapTable.default.classB.toNat = 0x28 ∧
  classBFlag TrapTable.default .undopc = 0x0080#16 ∧ classBFlag TrapTable.default .prtflt = 0x0008#16 ∧
  classBFlag TrapTable.default .illopa = 0x0004#16 ∧ classBFlag TrapTable.default .illina = 0x0002#16

/-- The undefined opcodes take the trap UNDOPC, whatever follows them, with their own address stacked; so do the MAC
opcodes of a product without the MAC, while one with it is refused (48_system_control.md R346, R347, 60_exceptions.md
R357). That a class A trap still pending with its flag cleared does not stop the entry is the model's choice (DESIGN
CHOICE, notes/assumptions/39.md). -/
def Obligations.UndefinedOpcodeTraps : Prop :=
  (∀ b1 b2 b3 : Byte, [0x3B#8, 0x44#8, 0x45#8, 0x85#8, 0x8B#8, 0x8C#8, 0x95#8, 0xC1#8, 0xC7#8, 0xE3#8, 0xE5#8, 0xF5#8,
    0xF8#8, 0xF9#8].map (fun b0 => decode b0 b1 b2 b3) = undefinedInstrs.map Decoded.instr) ∧
  (∀ b1 b2 b3 : Byte, [0x83#8, 0x93#8, 0xA3#8, 0xB3#8, 0xC3#8, 0xD3#8].map (fun b0 => decode b0 b1 b2 b3) =
    macInstrs.map Decoded.instr) ∧
  ∀ s u : State, (enteredB s .undopc s.ip = some u →
      (∀ i ∈ undefinedInstrs, exec i s = .next u) ∧
      (s.par.hasMac = false → ∀ i ∈ macInstrs, exec i s = .next u)) ∧
    (s.par.hasMac = true → ∀ i ∈ macInstrs, exec i s = .refused .macPresent)

/-- A protected opcode with bytes that are not its pattern takes the trap PRTFLT with its own address stacked
(48_system_control.md R320, 60_exceptions.md R359). That a class A trap still pending with its flag cleared does not
stop the entry is the model's choice (DESIGN CHOICE, notes/assumptions/39.md). -/
def Obligations.ProtectionFaultTraps : Prop :=
  ∀ (b0 b1 b2 b3 : Byte) (s u : State), b0 ∈ [0x87#8, 0x97#8, 0xA7#8, 0xA5#8, 0xB5#8, 0xB7#8] →
    ¬ (b1 = ~~~b0 ∧ b2 = b0 ∧ b3 = b0) → enteredB s .prtflt s.ip = some u →
    ∃ i, decode b0 b1 b2 b3 = .instr i ∧ i ∈ protFaultInstrs b1 b2 b3 ∧ exec i s = .next u

/-- A word operand at an odd address: the access is not made, nothing is written, and the trap ILLOPA stacks IPnext
(20_memory.md R81, R82, 40_arithmetic.md R140, 60_exceptions.md R355), as a source and as a destination, in every
instruction that can name one; a post-incremented pointer stays as it was, in `MOV [-Rwm], Rwn` it stays decremented
(45_data_movement.md R230), and SCXT has pushed nothing (47_stack_return.md R303). The address of `MOV [-Rwm], Rwn` is
the decremented value, not what its register then reads (DEDUCED, notes/assumptions/12.md). That a class A trap still
pending with its flag cleared does not stop the entry is the model's choice (DESIGN CHOICE, notes/assumptions/39.md). -/
def Obligations.OddOperandTraps : Prop :=
  ∀ (s u : State) (l : Loc) (p : Addr), operandLoc .word s l = some p → isOdd p = true →
    (∀ v nx, memRead .word p s = .trap .illopa s ∧ memWrite .word nx p v s = .trap .illopa s) ∧
    (∀ (op : AluOp) (f : AluForm), enteredB s .illopa (s.ip + f.len) = some u →
      (f.src = .loc l →
        exec (aluInstr op .word f) s = .next u ∧ ∀ i, cmpInstr .word f = some i → exec i s = .next u) ∧
      ∀ v, f.dst = l → sourceVal .word s f.src = some v → exec (aluInstr op .word f) s = .next u) ∧
    (∀ (op : AluOp) (n : RegNum) (k : PtrNum), l = .ind (k.setWidth 4) → n ≠ k.setWidth 4 →
      enteredB s .illopa (s.ip + 2#16) = some u →
      exec (aluIncInstr op .word n k) s = .next u ∧ exec (cmpIncInstr .word n k) s = .next u) ∧
    (∀ (k : StepKind) (n : RegNum) (f : StepForm), f.src = .loc l → enteredB s .illopa (s.ip + f.len) = some u →
      exec (stepInstr k n f) s = .next u) ∧
    (∀ (f : MoveForm), enteredB s .illopa (s.ip + f.len) = some u →
      (f.src = .loc l → exec (moveInstr .word f) s = .next u) ∧
      ∀ v, f.dst = l → sourceVal .word s f.src = some v → exec (moveInstr .word f) s = .next u) ∧
    (∀ (n m : RegNum), n ≠ m → enteredB s .illopa (s.ip + 2#16) = some u →
      (l = .ind m →
        exec (moveFromIncInstr .word n m) s = .next u ∧ exec (moveIncIndInstr .word n m) s = .next u ∧
        exec (moveIndIncInstr .word n m) s = .next u) ∧
      ∀ v, l = .ind n → sourceVal .word s (.loc (.ind m)) = some v →
        exec (moveIncIndInstr .word n m) s = .next u ∧ exec (moveIndIncInstr .word n m) s = .next u) ∧
    (∀ (m n : RegNum) (t : State) (v x : Word) (d : Addr), m ≠ n → gprVal .word s n = some v →
      gprVal .word s m = some x → pokePtr s (s.ip + 2#16) m (x - 2#16) = some t →
      longLoc t (x - 2#16) = some d → isOdd d = true → enteredB t .illopa (s.ip + 2#16) = some u →
      exec (.movDecRw m n) s = .next u) ∧
    (∀ (x : Extend) (f : ExtendForm) (v : Byte), f.dst = l → sourceVal .byte s (.loc f.src) = some v →
      enteredB s .illopa (s.ip + f.len) = some u → exec (extendInstr x f) s = .next u) ∧
    (∀ (r : ShortReg) (a v : Word), l = .long a → sourceVal .word s (.loc (.short r)) = some v →
      enteredB s .illopa (s.ip + 4#16) = some u → exec (.scxtRegMem r a) s = .next u)

/-- A branch to an odd address completes; the trap ILLINA is taken before any fetch at the target, with the odd address
stacked (46_jump_call.md R270, 60_exceptions.md R356). That a class A trap still pending with its flag cleared does not
stop the entry is the model's choice (DESIGN CHOICE, notes/assumptions/39.md). -/
def Obligations.OddTargetTraps : Prop :=
  ∀ (s u : State), s.inputs = [] → s.run = .running → bankOk s.cp = true →
    s.retrapB = false → isOdd s.ip = true →
    (s.extCount ≠ 0 ∨
      (highestClassA s = none ∧ arbitrate s = none ∧ s.par.endAddr ≠ some (codeAddr s 0#16))) →
    enteredB (if s.extCount = 0 then afterArbitration s else s) .illina s.ip = some u → step s = .next u

/-- At an open boundary a class A trap is entered at level 15: NMI first, then STKOF, then STKUF; inside a sequence none
is. An NMI edge sets TFR.NMI and is taken at once (60_exceptions.md R351 to R353, R361, R366). The numbers and the flag
are those of TRAP_TABLE, by default 02h, 04h, 06h and bit 15. -/
def Obligations.ClassAEntry : Prop :=
  (TrapTable.default.nmi = 0x02#7 ∧ TrapTable.default.stkof = 0x04#7 ∧ TrapTable.default.stkuf = 0x06#7 ∧
    bitAt TrapTable.default.nmiBit = 0x8000#16) ∧
  ∀ (s u : State), s.run ≠ .powerdown → bankOk s.cp = true → s.retrapB = false → s.extCount = 0 →
    (s.inputs = [[.nmi]] →
      entered { s with inputs := [], run := .running, tfr := s.tfr ||| bitAt s.par.traps.nmiBit, pendNmi := false }
        (.classA .nmi) s.par.traps.nmi 15#4 s.ip = some u → step s = .next u) ∧
    (s.inputs = [] → s.pendNmi = true →
      entered { s with run := .running, pendNmi := false } (.classA .nmi) s.par.traps.nmi 15#4 s.ip = some u →
      step s = .next u) ∧
    (s.inputs = [] → s.pendNmi = false → s.pendStkof = true →
      entered { s with run := .running, pendStkof := false } (.classA .stkof) s.par.traps.stkof 15#4 s.ip = some u →
      step s = .next u) ∧
    (s.inputs = [] → s.pendNmi = false → s.pendStkof = false → s.pendStkuf = true →
      entered { s with run := .running, pendStkuf := false } (.classA .stkuf) s.par.traps.stkuf 15#4 s.ip = some u →
      step s = .next u)

/-- An interrupt at an open boundary: of the sources that request and are enabled the one with the largest (ILVL, GLVL)
is entered if IEN is set and its level is above the PSW's; its request flag is cleared (60_exceptions.md R362, R365,
R366). A load of a source's control register gives its eight bits, and 0 above them; a store keeps bits 7:0 and discards
bits 15:8, as a word, as a byte at either half and through `reg`, and changes no other source's; a request from the
environment sets bit 7, xxIR, of its source and nothing else, at whichever boundary it comes (R365, R366). IEN is bit 11
and ILVL bits 15:12 of the PSW by the default layout (10_state.md R30; notes/assumptions/2.md). -/
def Obligations.InterruptEntry : Prop :=
  (∀ w : Word, pswIen PswLayout.default w = w.getLsbD 11 ∧ (pswIlvl PswLayout.default w).toNat = w.toNat / 4096) ∧
  (∀ (s : State) (k : Nat) (q : IrqSource), s.irqs[k]? = some q →
    (place s q.icAddr = .irq k → isOdd q.icAddr = false → beyondBits s q.icAddr = false →
      beyondBits s (q.icAddr + 1) = false →
      memRead .word q.icAddr s = .ok (q.ic.setWidth 16) s ∧ memRead .byte q.icAddr s = .ok q.ic s ∧
      memRead .byte (q.icAddr + 1) s = .ok 0#8 s ∧
      ∀ nx : Word, inWindow s nx q.icAddr = false → inWindow s nx (q.icAddr + 1) = false →
        (∀ v : Word, memWrite .word nx q.icAddr v s =
          .ok () { s with irqs := s.irqs.set k { q with ic := v.setWidth 8 } }) ∧
        ∀ (b : Byte) (l : Loc), storeLoc .byte l nx q.icAddr b s =
            .ok () { s with irqs := s.irqs.set k { q with ic := b } } ∧
          (storesWord .byte l = false → storeLoc .byte l nx (q.icAddr + 1) b s = .ok () s)) ∧
    deliver s (.irq k) = { s with irqs := s.irqs.set k { q with ic := q.ic ||| 0x80#8 } } ∧
    (s.inputs = [[.irq k]] → s.run ≠ .powerdown →
      step s = step { s with inputs := [], irqs := s.irqs.set k { q with ic := q.ic ||| 0x80#8 } })) ∧
  ∀ (s u : State) (k : Nat) (q : IrqSource), s.inputs = [] → s.run = .running → bankOk s.cp = true → s.retrapB = false →
    s.extCount = 0 → s.arbHist = [] → s.pendNmi = false → s.pendStkof = false → s.pendStkuf = false →
    s.irqs[k]? = some q → q.ic.getLsbD 7 = true → q.ic.getLsbD 6 = true → q.pec = false →
    (∀ (j : Nat) (r : IrqSource), s.irqs[j]? = some r → j ≠ k → r.ic.getLsbD 7 = true → r.ic.getLsbD 6 = true →
      r.ic.toNat % 64 < q.ic.toNat % 64) →
    (∀ (i j : Nat) (r t : IrqSource), s.irqs[i]? = some r → s.irqs[j]? = some t → i ≠ j → r.ic.getLsbD 6 = true →
      t.ic.getLsbD 6 = true → r.ic.toNat % 64 ≠ t.ic.toNat % 64) →
    pswIen s.par.psw s.psw = true → (pswIlvl s.par.psw s.psw).toNat < q.ic.toNat / 4 % 16 →
    entered (putIrq s k (q.ic &&& 0x7F#8)) .interrupt q.trapNo (q.ic.extractLsb' 2 4) s.ip = some u →
    step s = .next u

/-- In idle mode a step waits while nothing is delivered and no enabled request is pending, and runs on when one is,
from before IDLE too and whether it will be accepted or not (60_exceptions.md R374; DESIGN CHOICE:
notes/assumptions/36.md); in power-down nothing but a reset changes anything (R374, R378; notes/assumptions/22.md). -/
def Obligations.IdleAndPowerDown : Prop :=
  ∀ (s : State), (s.run = .idle → s.inputs = [] → s.pendNmi = false → s.pendStkof = false → s.pendStkuf = false →
      (∀ q ∈ s.irqs, q.ic.getLsbD 7 = false ∨ q.ic.getLsbD 6 = false) → step s = .next s) ∧
    (s.run = .idle → s.inputs = [] → (∃ q ∈ s.irqs, q.ic.getLsbD 7 = true ∧ q.ic.getLsbD 6 = true) →
      step s = step { s with run := .running }) ∧
    (s.run = .powerdown → s.inputs = [] → step s = .fault .poweredDown) ∧
    (∀ evs rest, s.run = .powerdown → s.inputs = evs :: rest → EnvEvent.reset ∉ evs →
      step s = .next { s with inputs := rest })

/-! Frames -/

/-- What the arithmetic, logical, bit, compare and shift instructions leave unchanged, in every form: all but the
operand they write, the pointer they increment, MDL and MDH, and the flags. A byte written through `reg` below F0h is
the whole word of the (E)SFR (20_memory.md R63); the pointer's word is where its register lies after the store
(10_state.md R24). -/
def Obligations.DataFrames : Prop :=
  (∀ op w f, FrameOf (aluInstr op w f) fun s => (operandLoc w s f.dst).map fun d => [(storeWidth w f.dst, d)]) ∧
  (∀ op w n i, FrameOf (aluIncInstr op w n i) fun s =>
    (sourceVal w s (.loc (.ind (i.setWidth 4)))).bind fun b => (gprLoc w s n).bind fun d => (peek w s d).bind fun a =>
      storedThenPtr w (.gpr n) s (s.ip + 2#16) d (aluResult op s.flags a b) (i.setWidth 4)) ∧
  (∀ w n, FrameOf (cplInstr w n) (fun s => (gprLoc w s n).map fun d => [(w, d)]) ∧
    FrameOf (negInstr w n) (fun s => (gprLoc w s n).map fun d => [(w, d)])) ∧
  (∀ n m, FrameOf (.mul n m) (fun s => some [atReg s .mdl, atReg s .mdh]) ∧
    FrameOf (.mulu n m) (fun s => some [atReg s .mdl, atReg s .mdh])) ∧
  (∀ kind n, FrameOf (divInstr kind n) fun s => some [atReg s .mdl, atReg s .mdh]) ∧
  (∀ qq q, FrameOf (.bset qq q) (fun s => (bitLoc s qq).map fun a => [(.word, a)]) ∧
    FrameOf (.bclr qq q) (fun s => (bitLoc s qq).map fun a => [(.word, a)])) ∧
  (∀ zz z qq q, FrameOf (.bmov zz z qq q) (fun s => (bitLoc s zz).map fun a => [(.word, a)]) ∧
    FrameOf (.bmovn zz z qq q) (fun s => (bitLoc s zz).map fun a => [(.word, a)]) ∧
    FrameOf (.bcmp zz z qq q) fun _ => some []) ∧
  (∀ op zz z qq q, FrameOf (bitLogicInstr op zz z qq q) fun s => (bitLoc s zz).map fun a => [(.word, a)]) ∧
  (∀ qq mask d, FrameOf (.bfldl qq mask d) (fun s => (bitLoc s qq).map fun a => [(.word, a)]) ∧
    FrameOf (.bfldh qq mask d) fun s => (bitLoc s qq).map fun a => [(.word, a)]) ∧
  (∀ w f i, cmpInstr w f = some i → FrameOf i fun _ => some []) ∧
  (∀ w n k, FrameOf (cmpIncInstr w n k) fun s => (gprLoc .word s (k.setWidth 4)).map fun p => [(.word, p)]) ∧
  (∀ k n f, FrameOf (stepInstr k n f) fun s => (gprLoc .word s n).map fun d => [(.word, d)]) ∧
  (∀ kind n m, FrameOf (shiftRegInstr kind n m) fun s => (gprLoc .word s n).map fun d => [(.word, d)]) ∧
  (∀ kind n c, FrameOf (shiftImmInstr kind n c) fun s => (gprLoc .word s n).map fun d => [(.word, d)]) ∧
  (∀ n m, FrameOf (.prior n m) fun s => (gprLoc .word s n).map fun d => [(.word, d)])

/-- What the moves leave unchanged, in every form: all but the destination, the pointer they step, and the flags. The
address of a pre-decrement store is formed after the pointer is written, and the word of a post-incremented pointer is
where its register lies after the store, as the instruction does. The pre-decrement address is the decremented value
itself (DEDUCED, notes/assumptions/12.md). -/
def Obligations.MoveFrames : Prop :=
  (∀ w f, FrameOf (moveInstr w f) fun s => (operandLoc w s f.dst).map fun d => [(storeWidth w f.dst, d)]) ∧
  (∀ w n m, FrameOf (moveFromIncInstr w n m) fun s =>
    (sourceVal w s (.loc (.ind m))).bind fun v => (gprLoc w s n).bind fun d =>
      storedThenPtr w (.gpr n) s (s.ip + 2#16) d v m) ∧
  (∀ w m n, FrameOf (moveToDecInstr w m n) fun s =>
    (gprLoc .word s m).bind fun pa => (peek .word s pa).bind fun p =>
      (pokePtr s (s.ip + 2#16) m (p - widthStep w)).bind fun u =>
        (longLoc u (p - widthStep w)).map fun d => [(w, d), (.word, pa)]) ∧
  (∀ w n m, FrameOf (moveIncIndInstr w n m) fun s =>
    (sourceVal w s (.loc (.ind m))).bind fun v => (operandLoc w s (.ind n)).bind fun d =>
      storedThenPtr w (.ind n) s (s.ip + 2#16) d v n) ∧
  (∀ w n m, FrameOf (moveIndIncInstr w n m) fun s =>
    (sourceVal w s (.loc (.ind m))).bind fun v => (operandLoc w s (.ind n)).bind fun d =>
      storedThenPtr w (.ind n) s (s.ip + 2#16) d v m) ∧
  (∀ x f, FrameOf (extendInstr x f) fun s => (operandLoc .word s f.dst).map fun d => [(.word, d)])

/-- What the jumps, calls, stack and return instructions leave unchanged: all but CSP where they name a segment, the
stack words they push, SP (and TFR where STACK_LIMITS is on), the register they write, and no flag but where the spec
names one. The second stack word is addressed by SP as the first push left it. The frame of RETI stands in
ReturnFromInterrupt. -/
def Obligations.ControlFrames : Prop :=
  FlaglessFrameOf .nop (fun _ => some []) ∧
  (∀ cc rel, FlaglessFrameOf (.jmpr cc rel) fun _ => some []) ∧
  (∀ cc a, FlaglessFrameOf (.jmpa cc a) fun _ => some []) ∧
  (∀ cc n, FlaglessFrameOf (.jmpi cc n) fun _ => some []) ∧
  (∀ seg a, FlaglessFrameOf (.jmps seg a) fun s => some [atReg s .csp]) ∧
  (∀ qq q rel, FlaglessFrameOf (.jb qq q rel) (fun _ => some []) ∧ FlaglessFrameOf (.jnb qq q rel) fun _ => some []) ∧
  (∀ qq q rel, FrameOf (.jbc qq q rel) (fun s => (bitLoc s qq).bind fun a => (peek .word s a).map fun x =>
      if x.getLsbD q.toNat then [(.word, a)] else []) ∧
    FrameOf (.jnbs qq q rel) fun s => (bitLoc s qq).bind fun a => (peek .word s a).map fun x =>
      if x.getLsbD q.toNat then [] else [(.word, a)]) ∧
  (∀ cc a, FlaglessFrameOf (.calla cc a) fun s =>
    some (if condHolds cc s.flags then pushSlot s 1#16 :: stackRegs s else [])) ∧
  (∀ cc n, FlaglessFrameOf (.calli cc n) fun s =>
    some (if condHolds cc s.flags then pushSlot s 1#16 :: stackRegs s else [])) ∧
  (∀ rel, FlaglessFrameOf (.callr rel) fun s => some (pushSlot s 1#16 :: stackRegs s)) ∧
  (∀ seg a, FlaglessFrameOf (.calls seg a) fun s => (pushed s (s.ip + 4#16) (s.csp.setWidth 16)).map fun u =>
    pushSlot s 1#16 :: pushSlot u 1#16 :: atReg s .csp :: stackRegs s) ∧
  (∀ r a, FrameOf (.pcall r a) fun s => (sourceVal .word s (.loc (.short r))).bind fun v =>
    (pushed s (s.ip + 4#16) v).map fun u => pushSlot s 1#16 :: pushSlot u 1#16 :: stackRegs s) ∧
  (∀ r, FrameOf (.push r) fun s => some (pushSlot s 1#16 :: stackRegs s)) ∧
  (∀ r, FrameOf (.pop r) fun s => (shortLoc .word s r).map fun d => (.word, d) :: stackRegs s) ∧
  (∀ r x, FlaglessFrameOf (.scxtRegImm r x) fun s => (sourceVal .word s (.loc (.short r))).bind fun v =>
    (pushed s (s.ip + 4#16) v).bind fun u => (shortLoc .word u r).map fun d =>
      (.word, d) :: pushSlot s 1#16 :: stackRegs s) ∧
  (∀ r a, FlaglessFrameOf (.scxtRegMem r a) fun s => (sourceVal .word s (.loc (.short r))).bind fun v =>
    (pushed s (s.ip + 4#16) v).bind fun u => (shortLoc .word u r).map fun d =>
      (.word, d) :: pushSlot s 1#16 :: stackRegs s) ∧
  FlaglessFrameOf .ret (fun s => some (stackRegs s)) ∧
  FlaglessFrameOf .rets (fun s => some (atReg s .csp :: stackRegs s)) ∧
  (∀ r, FrameOf (.retp r) fun s => (shortLoc .word s r).map fun d => (.word, d) :: stackRegs s)
end

