-- ==== Sys2Proof/Laws/State.lean ====
section
/-!
SUPPORT. One lemma per field per update of the state, so that no later proof unfolds a record update.
-/

namespace Sys2Proof.Machine

@[simp] theorem setByte_ip (s : State) (a : Addr) (v : Byte) : (setByte s a v).ip = s.ip := rfl
@[simp] theorem setByte_csp (s : State) (a : Addr) (v : Byte) : (setByte s a v).csp = s.csp := rfl
@[simp] theorem setByte_psw (s : State) (a : Addr) (v : Byte) : (setByte s a v).psw = s.psw := rfl
@[simp] theorem setByte_cp (s : State) (a : Addr) (v : Byte) : (setByte s a v).cp = s.cp := rfl
@[simp] theorem setByte_sp (s : State) (a : Addr) (v : Byte) : (setByte s a v).sp = s.sp := rfl
@[simp] theorem setByte_stkov (s : State) (a : Addr) (v : Byte) : (setByte s a v).stkov = s.stkov := rfl
@[simp] theorem setByte_stkun (s : State) (a : Addr) (v : Byte) : (setByte s a v).stkun = s.stkun := rfl
@[simp] theorem setByte_dpp0 (s : State) (a : Addr) (v : Byte) : (setByte s a v).dpp0 = s.dpp0 := rfl
@[simp] theorem setByte_dpp1 (s : State) (a : Addr) (v : Byte) : (setByte s a v).dpp1 = s.dpp1 := rfl
@[simp] theorem setByte_dpp2 (s : State) (a : Addr) (v : Byte) : (setByte s a v).dpp2 = s.dpp2 := rfl
@[simp] theorem setByte_dpp3 (s : State) (a : Addr) (v : Byte) : (setByte s a v).dpp3 = s.dpp3 := rfl
@[simp] theorem setByte_mdl (s : State) (a : Addr) (v : Byte) : (setByte s a v).mdl = s.mdl := rfl
@[simp] theorem setByte_mdh (s : State) (a : Addr) (v : Byte) : (setByte s a v).mdh = s.mdh := rfl
@[simp] theorem setByte_mdc (s : State) (a : Addr) (v : Byte) : (setByte s a v).mdc = s.mdc := rfl
@[simp] theorem setByte_syscon (s : State) (a : Addr) (v : Byte) : (setByte s a v).syscon = s.syscon := rfl
@[simp] theorem setByte_tfr (s : State) (a : Addr) (v : Byte) : (setByte s a v).tfr = s.tfr := rfl
@[simp] theorem setByte_extCount (s : State) (a : Addr) (v : Byte) : (setByte s a v).extCount = s.extCount := rfl
@[simp] theorem setByte_extEsfr (s : State) (a : Addr) (v : Byte) : (setByte s a v).extEsfr = s.extEsfr := rfl
@[simp] theorem setByte_extOvr (s : State) (a : Addr) (v : Byte) : (setByte s a v).extOvr = s.extOvr := rfl
@[simp] theorem setByte_run (s : State) (a : Addr) (v : Byte) : (setByte s a v).run = s.run := rfl
@[simp] theorem setByte_initDone (s : State) (a : Addr) (v : Byte) : (setByte s a v).initDone = s.initDone := rfl
@[simp] theorem setByte_wdtEnabled (s : State) (a : Addr) (v : Byte) : (setByte s a v).wdtEnabled = s.wdtEnabled := rfl
@[simp] theorem setByte_wdtLocked (s : State) (a : Addr) (v : Byte) : (setByte s a v).wdtLocked = s.wdtLocked := rfl
@[simp] theorem setByte_pendNmi (s : State) (a : Addr) (v : Byte) : (setByte s a v).pendNmi = s.pendNmi := rfl
@[simp] theorem setByte_pendStkof (s : State) (a : Addr) (v : Byte) : (setByte s a v).pendStkof = s.pendStkof := rfl
@[simp] theorem setByte_pendStkuf (s : State) (a : Addr) (v : Byte) : (setByte s a v).pendStkuf = s.pendStkuf := rfl
@[simp] theorem setByte_irqs (s : State) (a : Addr) (v : Byte) : (setByte s a v).irqs = s.irqs := rfl
@[simp] theorem setByte_par (s : State) (a : Addr) (v : Byte) : (setByte s a v).par = s.par := rfl
@[simp] theorem setByte_nmiPinLow (s : State) (a : Addr) (v : Byte) : (setByte s a v).nmiPinLow = s.nmiPinLow := rfl
@[simp] theorem setByte_inputs (s : State) (a : Addr) (v : Byte) : (setByte s a v).inputs = s.inputs := rfl
@[simp] theorem setByte_events (s : State) (a : Addr) (v : Byte) : (setByte s a v).events = s.events := rfl
@[simp] theorem setByte_draws (s : State) (a : Addr) (v : Byte) : (setByte s a v).draws = s.draws := rfl
@[simp] theorem setByte_hazIn (s : State) (a : Addr) (v : Byte) : (setByte s a v).hazIn = s.hazIn := rfl
@[simp] theorem setByte_hazOut (s : State) (a : Addr) (v : Byte) : (setByte s a v).hazOut = s.hazOut := rfl
@[simp] theorem setByte_arbHist (s : State) (a : Addr) (v : Byte) : (setByte s a v).arbHist = s.arbHist := rfl
@[simp] theorem setByte_frames (s : State) (a : Addr) (v : Byte) : (setByte s a v).frames = s.frames := rfl
@[simp] theorem setByte_retrapB (s : State) (a : Addr) (v : Byte) : (setByte s a v).retrapB = s.retrapB := rfl

@[simp] theorem setWord_ip (s : State) (a : Addr) (v : Word) : (setWord s a v).ip = s.ip := rfl
@[simp] theorem setWord_csp (s : State) (a : Addr) (v : Word) : (setWord s a v).csp = s.csp := rfl
@[simp] theorem setWord_psw (s : State) (a : Addr) (v : Word) : (setWord s a v).psw = s.psw := rfl
@[simp] theorem setWord_cp (s : State) (a : Addr) (v : Word) : (setWord s a v).cp = s.cp := rfl
@[simp] theorem setWord_sp (s : State) (a : Addr) (v : Word) : (setWord s a v).sp = s.sp := rfl
@[simp] theorem setWord_stkov (s : State) (a : Addr) (v : Word) : (setWord s a v).stkov = s.stkov := rfl
@[simp] theorem setWord_stkun (s : State) (a : Addr) (v : Word) : (setWord s a v).stkun = s.stkun := rfl
@[simp] theorem setWord_dpp0 (s : State) (a : Addr) (v : Word) : (setWord s a v).dpp0 = s.dpp0 := rfl
@[simp] theorem setWord_dpp1 (s : State) (a : Addr) (v : Word) : (setWord s a v).dpp1 = s.dpp1 := rfl
@[simp] theorem setWord_dpp2 (s : State) (a : Addr) (v : Word) : (setWord s a v).dpp2 = s.dpp2 := rfl
@[simp] theorem setWord_dpp3 (s : State) (a : Addr) (v : Word) : (setWord s a v).dpp3 = s.dpp3 := rfl
@[simp] theorem setWord_mdl (s : State) (a : Addr) (v : Word) : (setWord s a v).mdl = s.mdl := rfl
@[simp] theorem setWord_mdh (s : State) (a : Addr) (v : Word) : (setWord s a v).mdh = s.mdh := rfl
@[simp] theorem setWord_mdc (s : State) (a : Addr) (v : Word) : (setWord s a v).mdc = s.mdc := rfl
@[simp] theorem setWord_syscon (s : State) (a : Addr) (v : Word) : (setWord s a v).syscon = s.syscon := rfl
@[simp] theorem setWord_tfr (s : State) (a : Addr) (v : Word) : (setWord s a v).tfr = s.tfr := rfl
@[simp] theorem setWord_extCount (s : State) (a : Addr) (v : Word) : (setWord s a v).extCount = s.extCount := rfl
@[simp] theorem setWord_extEsfr (s : State) (a : Addr) (v : Word) : (setWord s a v).extEsfr = s.extEsfr := rfl
@[simp] theorem setWord_extOvr (s : State) (a : Addr) (v : Word) : (setWord s a v).extOvr = s.extOvr := rfl
@[simp] theorem setWord_run (s : State) (a : Addr) (v : Word) : (setWord s a v).run = s.run := rfl
@[simp] theorem setWord_initDone (s : State) (a : Addr) (v : Word) : (setWord s a v).initDone = s.initDone := rfl
@[simp] theorem setWord_wdtEnabled (s : State) (a : Addr) (v : Word) : (setWord s a v).wdtEnabled = s.wdtEnabled := rfl
@[simp] theorem setWord_wdtLocked (s : State) (a : Addr) (v : Word) : (setWord s a v).wdtLocked = s.wdtLocked := rfl
@[simp] theorem setWord_pendNmi (s : State) (a : Addr) (v : Word) : (setWord s a v).pendNmi = s.pendNmi := rfl
@[simp] theorem setWord_pendStkof (s : State) (a : Addr) (v : Word) : (setWord s a v).pendStkof = s.pendStkof := rfl
@[simp] theorem setWord_pendStkuf (s : State) (a : Addr) (v : Word) : (setWord s a v).pendStkuf = s.pendStkuf := rfl
@[simp] theorem setWord_irqs (s : State) (a : Addr) (v : Word) : (setWord s a v).irqs = s.irqs := rfl
@[simp] theorem setWord_par (s : State) (a : Addr) (v : Word) : (setWord s a v).par = s.par := rfl
@[simp] theorem setWord_nmiPinLow (s : State) (a : Addr) (v : Word) : (setWord s a v).nmiPinLow = s.nmiPinLow := rfl
@[simp] theorem setWord_inputs (s : State) (a : Addr) (v : Word) : (setWord s a v).inputs = s.inputs := rfl
@[simp] theorem setWord_events (s : State) (a : Addr) (v : Word) : (setWord s a v).events = s.events := rfl
@[simp] theorem setWord_draws (s : State) (a : Addr) (v : Word) : (setWord s a v).draws = s.draws := rfl
@[simp] theorem setWord_hazIn (s : State) (a : Addr) (v : Word) : (setWord s a v).hazIn = s.hazIn := rfl
@[simp] theorem setWord_hazOut (s : State) (a : Addr) (v : Word) : (setWord s a v).hazOut = s.hazOut := rfl
@[simp] theorem setWord_arbHist (s : State) (a : Addr) (v : Word) : (setWord s a v).arbHist = s.arbHist := rfl
@[simp] theorem setWord_frames (s : State) (a : Addr) (v : Word) : (setWord s a v).frames = s.frames := rfl
@[simp] theorem setWord_retrapB (s : State) (a : Addr) (v : Word) : (setWord s a v).retrapB = s.retrapB := rfl

@[simp] theorem setFlags_mem (f : Flags) (s : State) : (setFlags f s).mem = s.mem := rfl
@[simp] theorem setFlags_ip (f : Flags) (s : State) : (setFlags f s).ip = s.ip := rfl
@[simp] theorem setFlags_csp (f : Flags) (s : State) : (setFlags f s).csp = s.csp := rfl
@[simp] theorem setFlags_cp (f : Flags) (s : State) : (setFlags f s).cp = s.cp := rfl
@[simp] theorem setFlags_sp (f : Flags) (s : State) : (setFlags f s).sp = s.sp := rfl
@[simp] theorem setFlags_stkov (f : Flags) (s : State) : (setFlags f s).stkov = s.stkov := rfl
@[simp] theorem setFlags_stkun (f : Flags) (s : State) : (setFlags f s).stkun = s.stkun := rfl
@[simp] theorem setFlags_dpp0 (f : Flags) (s : State) : (setFlags f s).dpp0 = s.dpp0 := rfl
@[simp] theorem setFlags_dpp1 (f : Flags) (s : State) : (setFlags f s).dpp1 = s.dpp1 := rfl
@[simp] theorem setFlags_dpp2 (f : Flags) (s : State) : (setFlags f s).dpp2 = s.dpp2 := rfl
@[simp] theorem setFlags_dpp3 (f : Flags) (s : State) : (setFlags f s).dpp3 = s.dpp3 := rfl
@[simp] theorem setFlags_mdl (f : Flags) (s : State) : (setFlags f s).mdl = s.mdl := rfl
@[simp] theorem setFlags_mdh (f : Flags) (s : State) : (setFlags f s).mdh = s.mdh := rfl
@[simp] theorem setFlags_mdc (f : Flags) (s : State) : (setFlags f s).mdc = s.mdc := rfl
@[simp] theorem setFlags_syscon (f : Flags) (s : State) : (setFlags f s).syscon = s.syscon := rfl
@[simp] theorem setFlags_tfr (f : Flags) (s : State) : (setFlags f s).tfr = s.tfr := rfl
@[simp] theorem setFlags_extCount (f : Flags) (s : State) : (setFlags f s).extCount = s.extCount := rfl
@[simp] theorem setFlags_extEsfr (f : Flags) (s : State) : (setFlags f s).extEsfr = s.extEsfr := rfl
@[simp] theorem setFlags_extOvr (f : Flags) (s : State) : (setFlags f s).extOvr = s.extOvr := rfl
@[simp] theorem setFlags_run (f : Flags) (s : State) : (setFlags f s).run = s.run := rfl
@[simp] theorem setFlags_initDone (f : Flags) (s : State) : (setFlags f s).initDone = s.initDone := rfl
@[simp] theorem setFlags_wdtEnabled (f : Flags) (s : State) : (setFlags f s).wdtEnabled = s.wdtEnabled := rfl
@[simp] theorem setFlags_wdtLocked (f : Flags) (s : State) : (setFlags f s).wdtLocked = s.wdtLocked := rfl
@[simp] theorem setFlags_pendNmi (f : Flags) (s : State) : (setFlags f s).pendNmi = s.pendNmi := rfl
@[simp] theorem setFlags_pendStkof (f : Flags) (s : State) : (setFlags f s).pendStkof = s.pendStkof := rfl
@[simp] theorem setFlags_pendStkuf (f : Flags) (s : State) : (setFlags f s).pendStkuf = s.pendStkuf := rfl
@[simp] theorem setFlags_irqs (f : Flags) (s : State) : (setFlags f s).irqs = s.irqs := rfl
@[simp] theorem setFlags_par (f : Flags) (s : State) : (setFlags f s).par = s.par := rfl
@[simp] theorem setFlags_nmiPinLow (f : Flags) (s : State) : (setFlags f s).nmiPinLow = s.nmiPinLow := rfl
@[simp] theorem setFlags_inputs (f : Flags) (s : State) : (setFlags f s).inputs = s.inputs := rfl
@[simp] theorem setFlags_events (f : Flags) (s : State) : (setFlags f s).events = s.events := rfl
@[simp] theorem setFlags_draws (f : Flags) (s : State) : (setFlags f s).draws = s.draws := rfl
@[simp] theorem setFlags_hazIn (f : Flags) (s : State) : (setFlags f s).hazIn = s.hazIn := rfl
@[simp] theorem setFlags_hazOut (f : Flags) (s : State) : (setFlags f s).hazOut = s.hazOut := rfl
@[simp] theorem setFlags_arbHist (f : Flags) (s : State) : (setFlags f s).arbHist = s.arbHist := rfl
@[simp] theorem setFlags_frames (f : Flags) (s : State) : (setFlags f s).frames = s.frames := rfl
@[simp] theorem setFlags_retrapB (f : Flags) (s : State) : (setFlags f s).retrapB = s.retrapB := rfl

@[simp] theorem signal_mem (e : OutEvent) (s : State) : (signal e s).mem = s.mem := rfl
@[simp] theorem signal_ip (e : OutEvent) (s : State) : (signal e s).ip = s.ip := rfl
@[simp] theorem signal_csp (e : OutEvent) (s : State) : (signal e s).csp = s.csp := rfl
@[simp] theorem signal_psw (e : OutEvent) (s : State) : (signal e s).psw = s.psw := rfl
@[simp] theorem signal_cp (e : OutEvent) (s : State) : (signal e s).cp = s.cp := rfl
@[simp] theorem signal_sp (e : OutEvent) (s : State) : (signal e s).sp = s.sp := rfl
@[simp] theorem signal_stkov (e : OutEvent) (s : State) : (signal e s).stkov = s.stkov := rfl
@[simp] theorem signal_stkun (e : OutEvent) (s : State) : (signal e s).stkun = s.stkun := rfl
@[simp] theorem signal_dpp0 (e : OutEvent) (s : State) : (signal e s).dpp0 = s.dpp0 := rfl
@[simp] theorem signal_dpp1 (e : OutEvent) (s : State) : (signal e s).dpp1 = s.dpp1 := rfl
@[simp] theorem signal_dpp2 (e : OutEvent) (s : State) : (signal e s).dpp2 = s.dpp2 := rfl
@[simp] theorem signal_dpp3 (e : OutEvent) (s : State) : (signal e s).dpp3 = s.dpp3 := rfl
@[simp] theorem signal_mdl (e : OutEvent) (s : State) : (signal e s).mdl = s.mdl := rfl
@[simp] theorem signal_mdh (e : OutEvent) (s : State) : (signal e s).mdh = s.mdh := rfl
@[simp] theorem signal_mdc (e : OutEvent) (s : State) : (signal e s).mdc = s.mdc := rfl
@[simp] theorem signal_syscon (e : OutEvent) (s : State) : (signal e s).syscon = s.syscon := rfl
@[simp] theorem signal_tfr (e : OutEvent) (s : State) : (signal e s).tfr = s.tfr := rfl
@[simp] theorem signal_extCount (e : OutEvent) (s : State) : (signal e s).extCount = s.extCount := rfl
@[simp] theorem signal_extEsfr (e : OutEvent) (s : State) : (signal e s).extEsfr = s.extEsfr := rfl
@[simp] theorem signal_extOvr (e : OutEvent) (s : State) : (signal e s).extOvr = s.extOvr := rfl
@[simp] theorem signal_run (e : OutEvent) (s : State) : (signal e s).run = s.run := rfl
@[simp] theorem signal_initDone (e : OutEvent) (s : State) : (signal e s).initDone = s.initDone := rfl
@[simp] theorem signal_wdtEnabled (e : OutEvent) (s : State) : (signal e s).wdtEnabled = s.wdtEnabled := rfl
@[simp] theorem signal_wdtLocked (e : OutEvent) (s : State) : (signal e s).wdtLocked = s.wdtLocked := rfl
@[simp] theorem signal_pendNmi (e : OutEvent) (s : State) : (signal e s).pendNmi = s.pendNmi := rfl
@[simp] theorem signal_pendStkof (e : OutEvent) (s : State) : (signal e s).pendStkof = s.pendStkof := rfl
@[simp] theorem signal_pendStkuf (e : OutEvent) (s : State) : (signal e s).pendStkuf = s.pendStkuf := rfl
@[simp] theorem signal_irqs (e : OutEvent) (s : State) : (signal e s).irqs = s.irqs := rfl
@[simp] theorem signal_par (e : OutEvent) (s : State) : (signal e s).par = s.par := rfl
@[simp] theorem signal_nmiPinLow (e : OutEvent) (s : State) : (signal e s).nmiPinLow = s.nmiPinLow := rfl
@[simp] theorem signal_inputs (e : OutEvent) (s : State) : (signal e s).inputs = s.inputs := rfl
@[simp] theorem signal_draws (e : OutEvent) (s : State) : (signal e s).draws = s.draws := rfl
@[simp] theorem signal_hazIn (e : OutEvent) (s : State) : (signal e s).hazIn = s.hazIn := rfl
@[simp] theorem signal_hazOut (e : OutEvent) (s : State) : (signal e s).hazOut = s.hazOut := rfl
@[simp] theorem signal_arbHist (e : OutEvent) (s : State) : (signal e s).arbHist = s.arbHist := rfl
@[simp] theorem signal_frames (e : OutEvent) (s : State) : (signal e s).frames = s.frames := rfl
@[simp] theorem signal_retrapB (e : OutEvent) (s : State) : (signal e s).retrapB = s.retrapB := rfl

@[simp] theorem putIrq_mem (s : State) (k : Nat) (v : Byte) : (putIrq s k v).mem = s.mem := rfl
@[simp] theorem putIrq_ip (s : State) (k : Nat) (v : Byte) : (putIrq s k v).ip = s.ip := rfl
@[simp] theorem putIrq_csp (s : State) (k : Nat) (v : Byte) : (putIrq s k v).csp = s.csp := rfl
@[simp] theorem putIrq_psw (s : State) (k : Nat) (v : Byte) : (putIrq s k v).psw = s.psw := rfl
@[simp] theorem putIrq_cp (s : State) (k : Nat) (v : Byte) : (putIrq s k v).cp = s.cp := rfl
@[simp] theorem putIrq_sp (s : State) (k : Nat) (v : Byte) : (putIrq s k v).sp = s.sp := rfl
@[simp] theorem putIrq_stkov (s : State) (k : Nat) (v : Byte) : (putIrq s k v).stkov = s.stkov := rfl
@[simp] theorem putIrq_stkun (s : State) (k : Nat) (v : Byte) : (putIrq s k v).stkun = s.stkun := rfl
@[simp] theorem putIrq_dpp0 (s : State) (k : Nat) (v : Byte) : (putIrq s k v).dpp0 = s.dpp0 := rfl
@[simp] theorem putIrq_dpp1 (s : State) (k : Nat) (v : Byte) : (putIrq s k v).dpp1 = s.dpp1 := rfl
@[simp] theorem putIrq_dpp2 (s : State) (k : Nat) (v : Byte) : (putIrq s k v).dpp2 = s.dpp2 := rfl
@[simp] theorem putIrq_dpp3 (s : State) (k : Nat) (v : Byte) : (putIrq s k v).dpp3 = s.dpp3 := rfl
@[simp] theorem putIrq_mdl (s : State) (k : Nat) (v : Byte) : (putIrq s k v).mdl = s.mdl := rfl
@[simp] theorem putIrq_mdh (s : State) (k : Nat) (v : Byte) : (putIrq s k v).mdh = s.mdh := rfl
@[simp] theorem putIrq_mdc (s : State) (k : Nat) (v : Byte) : (putIrq s k v).mdc = s.mdc := rfl
@[simp] theorem putIrq_syscon (s : State) (k : Nat) (v : Byte) : (putIrq s k v).syscon = s.syscon := rfl
@[simp] theorem putIrq_tfr (s : State) (k : Nat) (v : Byte) : (putIrq s k v).tfr = s.tfr := rfl
@[simp] theorem putIrq_extCount (s : State) (k : Nat) (v : Byte) : (putIrq s k v).extCount = s.extCount := rfl
@[simp] theorem putIrq_extEsfr (s : State) (k : Nat) (v : Byte) : (putIrq s k v).extEsfr = s.extEsfr := rfl
@[simp] theorem putIrq_extOvr (s : State) (k : Nat) (v : Byte) : (putIrq s k v).extOvr = s.extOvr := rfl
@[simp] theorem putIrq_run (s : State) (k : Nat) (v : Byte) : (putIrq s k v).run = s.run := rfl
@[simp] theorem putIrq_initDone (s : State) (k : Nat) (v : Byte) : (putIrq s k v).initDone = s.initDone := rfl
@[simp] theorem putIrq_wdtEnabled (s : State) (k : Nat) (v : Byte) : (putIrq s k v).wdtEnabled = s.wdtEnabled := rfl
@[simp] theorem putIrq_wdtLocked (s : State) (k : Nat) (v : Byte) : (putIrq s k v).wdtLocked = s.wdtLocked := rfl
@[simp] theorem putIrq_pendNmi (s : State) (k : Nat) (v : Byte) : (putIrq s k v).pendNmi = s.pendNmi := rfl
@[simp] theorem putIrq_pendStkof (s : State) (k : Nat) (v : Byte) : (putIrq s k v).pendStkof = s.pendStkof := rfl
@[simp] theorem putIrq_pendStkuf (s : State) (k : Nat) (v : Byte) : (putIrq s k v).pendStkuf = s.pendStkuf := rfl
@[simp] theorem putIrq_par (s : State) (k : Nat) (v : Byte) : (putIrq s k v).par = s.par := rfl
@[simp] theorem putIrq_nmiPinLow (s : State) (k : Nat) (v : Byte) : (putIrq s k v).nmiPinLow = s.nmiPinLow := rfl
@[simp] theorem putIrq_inputs (s : State) (k : Nat) (v : Byte) : (putIrq s k v).inputs = s.inputs := rfl
@[simp] theorem putIrq_events (s : State) (k : Nat) (v : Byte) : (putIrq s k v).events = s.events := rfl
@[simp] theorem putIrq_draws (s : State) (k : Nat) (v : Byte) : (putIrq s k v).draws = s.draws := rfl
@[simp] theorem putIrq_hazIn (s : State) (k : Nat) (v : Byte) : (putIrq s k v).hazIn = s.hazIn := rfl
@[simp] theorem putIrq_hazOut (s : State) (k : Nat) (v : Byte) : (putIrq s k v).hazOut = s.hazOut := rfl
@[simp] theorem putIrq_arbHist (s : State) (k : Nat) (v : Byte) : (putIrq s k v).arbHist = s.arbHist := rfl
@[simp] theorem putIrq_frames (s : State) (k : Nat) (v : Byte) : (putIrq s k v).frames = s.frames := rfl
@[simp] theorem putIrq_retrapB (s : State) (k : Nat) (v : Byte) : (putIrq s k v).retrapB = s.retrapB := rfl

@[simp] theorem shiftHazards_mem (s : State) : (shiftHazards s).mem = s.mem := rfl
@[simp] theorem shiftHazards_ip (s : State) : (shiftHazards s).ip = s.ip := rfl
@[simp] theorem shiftHazards_csp (s : State) : (shiftHazards s).csp = s.csp := rfl
@[simp] theorem shiftHazards_psw (s : State) : (shiftHazards s).psw = s.psw := rfl
@[simp] theorem shiftHazards_cp (s : State) : (shiftHazards s).cp = s.cp := rfl
@[simp] theorem shiftHazards_sp (s : State) : (shiftHazards s).sp = s.sp := rfl
@[simp] theorem shiftHazards_stkov (s : State) : (shiftHazards s).stkov = s.stkov := rfl
@[simp] theorem shiftHazards_stkun (s : State) : (shiftHazards s).stkun = s.stkun := rfl
@[simp] theorem shiftHazards_dpp0 (s : State) : (shiftHazards s).dpp0 = s.dpp0 := rfl
@[simp] theorem shiftHazards_dpp1 (s : State) : (shiftHazards s).dpp1 = s.dpp1 := rfl
@[simp] theorem shiftHazards_dpp2 (s : State) : (shiftHazards s).dpp2 = s.dpp2 := rfl
@[simp] theorem shiftHazards_dpp3 (s : State) : (shiftHazards s).dpp3 = s.dpp3 := rfl
@[simp] theorem shiftHazards_mdl (s : State) : (shiftHazards s).mdl = s.mdl := rfl
@[simp] theorem shiftHazards_mdh (s : State) : (shiftHazards s).mdh = s.mdh := rfl
@[simp] theorem shiftHazards_mdc (s : State) : (shiftHazards s).mdc = s.mdc := rfl
@[simp] theorem shiftHazards_syscon (s : State) : (shiftHazards s).syscon = s.syscon := rfl
@[simp] theorem shiftHazards_tfr (s : State) : (shiftHazards s).tfr = s.tfr := rfl
@[simp] theorem shiftHazards_extCount (s : State) : (shiftHazards s).extCount = s.extCount := rfl
@[simp] theorem shiftHazards_extEsfr (s : State) : (shiftHazards s).extEsfr = s.extEsfr := rfl
@[simp] theorem shiftHazards_extOvr (s : State) : (shiftHazards s).extOvr = s.extOvr := rfl
@[simp] theorem shiftHazards_run (s : State) : (shiftHazards s).run = s.run := rfl
@[simp] theorem shiftHazards_initDone (s : State) : (shiftHazards s).initDone = s.initDone := rfl
@[simp] theorem shiftHazards_wdtEnabled (s : State) : (shiftHazards s).wdtEnabled = s.wdtEnabled := rfl
@[simp] theorem shiftHazards_wdtLocked (s : State) : (shiftHazards s).wdtLocked = s.wdtLocked := rfl
@[simp] theorem shiftHazards_pendNmi (s : State) : (shiftHazards s).pendNmi = s.pendNmi := rfl
@[simp] theorem shiftHazards_pendStkof (s : State) : (shiftHazards s).pendStkof = s.pendStkof := rfl
@[simp] theorem shiftHazards_pendStkuf (s : State) : (shiftHazards s).pendStkuf = s.pendStkuf := rfl
@[simp] theorem shiftHazards_irqs (s : State) : (shiftHazards s).irqs = s.irqs := rfl
@[simp] theorem shiftHazards_par (s : State) : (shiftHazards s).par = s.par := rfl
@[simp] theorem shiftHazards_nmiPinLow (s : State) : (shiftHazards s).nmiPinLow = s.nmiPinLow := rfl
@[simp] theorem shiftHazards_inputs (s : State) : (shiftHazards s).inputs = s.inputs := rfl
@[simp] theorem shiftHazards_events (s : State) : (shiftHazards s).events = s.events := rfl
@[simp] theorem shiftHazards_draws (s : State) : (shiftHazards s).draws = s.draws := rfl
@[simp] theorem shiftHazards_arbHist (s : State) : (shiftHazards s).arbHist = s.arbHist := rfl
@[simp] theorem shiftHazards_frames (s : State) : (shiftHazards s).frames = s.frames := rfl
@[simp] theorem shiftHazards_retrapB (s : State) : (shiftHazards s).retrapB = s.retrapB := rfl

@[simp] theorem setByte_mem (s : State) (a : Addr) (v : Byte) : (setByte s a v).mem = putCell s.mem a.toNat v := rfl
@[simp] theorem setFlags_psw (f : Flags) (s : State) : (setFlags f s).psw = putFlags s.par.psw s.psw f := rfl
@[simp] theorem shiftHazards_hazIn (s : State) : (shiftHazards s).hazIn = s.hazOut := rfl
@[simp] theorem shiftHazards_hazOut (s : State) : (shiftHazards s).hazOut = Hazards.clear := rfl

@[simp] theorem putCpuReg_mem (r : CpuReg) (v : Word) (s : State) : (putCpuReg r v s).mem = s.mem := by
  cases r <;> rfl
@[simp] theorem putCpuReg_ip (r : CpuReg) (v : Word) (s : State) : (putCpuReg r v s).ip = s.ip := by
  cases r <;> rfl
@[simp] theorem putCpuReg_csp (r : CpuReg) (v : Word) (s : State) : (putCpuReg r v s).csp = s.csp := by
  cases r <;> rfl
@[simp] theorem putCpuReg_extCount (r : CpuReg) (v : Word) (s : State) : (putCpuReg r v s).extCount = s.extCount := by
  cases r <;> rfl
@[simp] theorem putCpuReg_extEsfr (r : CpuReg) (v : Word) (s : State) : (putCpuReg r v s).extEsfr = s.extEsfr := by
  cases r <;> rfl
@[simp] theorem putCpuReg_extOvr (r : CpuReg) (v : Word) (s : State) : (putCpuReg r v s).extOvr = s.extOvr := by
  cases r <;> rfl
@[simp] theorem putCpuReg_run (r : CpuReg) (v : Word) (s : State) : (putCpuReg r v s).run = s.run := by
  cases r <;> rfl
@[simp] theorem putCpuReg_initDone (r : CpuReg) (v : Word) (s : State) : (putCpuReg r v s).initDone = s.initDone := by
  cases r <;> rfl
@[simp] theorem putCpuReg_wdtEnabled (r : CpuReg) (v : Word) (s : State) : (putCpuReg r v s).wdtEnabled = s.wdtEnabled := by
  cases r <;> rfl
@[simp] theorem putCpuReg_wdtLocked (r : CpuReg) (v : Word) (s : State) : (putCpuReg r v s).wdtLocked = s.wdtLocked := by
  cases r <;> rfl
@[simp] theorem putCpuReg_pendNmi (r : CpuReg) (v : Word) (s : State) : (putCpuReg r v s).pendNmi = s.pendNmi := by
  cases r <;> rfl
@[simp] theorem putCpuReg_pendStkof (r : CpuReg) (v : Word) (s : State) : (putCpuReg r v s).pendStkof = s.pendStkof := by
  cases r <;> rfl
@[simp] theorem putCpuReg_pendStkuf (r : CpuReg) (v : Word) (s : State) : (putCpuReg r v s).pendStkuf = s.pendStkuf := by
  cases r <;> rfl
@[simp] theorem putCpuReg_irqs (r : CpuReg) (v : Word) (s : State) : (putCpuReg r v s).irqs = s.irqs := by
  cases r <;> rfl
@[simp] theorem putCpuReg_par (r : CpuReg) (v : Word) (s : State) : (putCpuReg r v s).par = s.par := by
  cases r <;> rfl
@[simp] theorem putCpuReg_nmiPinLow (r : CpuReg) (v : Word) (s : State) : (putCpuReg r v s).nmiPinLow = s.nmiPinLow := by
  cases r <;> rfl
@[simp] theorem putCpuReg_inputs (r : CpuReg) (v : Word) (s : State) : (putCpuReg r v s).inputs = s.inputs := by
  cases r <;> rfl
@[simp] theorem putCpuReg_events (r : CpuReg) (v : Word) (s : State) : (putCpuReg r v s).events = s.events := by
  cases r <;> rfl
@[simp] theorem putCpuReg_draws (r : CpuReg) (v : Word) (s : State) : (putCpuReg r v s).draws = s.draws := by
  cases r <;> rfl
@[simp] theorem putCpuReg_hazIn (r : CpuReg) (v : Word) (s : State) : (putCpuReg r v s).hazIn = s.hazIn := by
  cases r <;> rfl
@[simp] theorem putCpuReg_frames (r : CpuReg) (v : Word) (s : State) : (putCpuReg r v s).frames = s.frames := by
  cases r <;> rfl
@[simp] theorem putCpuReg_retrapB (r : CpuReg) (v : Word) (s : State) : (putCpuReg r v s).retrapB = s.retrapB := by
  cases r <;> rfl

@[simp] theorem setFlagsFor_mem (d : Addr) (f : Flags) (s : State) : (setFlagsFor d f s).mem = s.mem := by
  unfold setFlagsFor; split <;> rfl
@[simp] theorem setFlagsFor_ip (d : Addr) (f : Flags) (s : State) : (setFlagsFor d f s).ip = s.ip := by
  unfold setFlagsFor; split <;> rfl
@[simp] theorem setFlagsFor_csp (d : Addr) (f : Flags) (s : State) : (setFlagsFor d f s).csp = s.csp := by
  unfold setFlagsFor; split <;> rfl
@[simp] theorem setFlagsFor_cp (d : Addr) (f : Flags) (s : State) : (setFlagsFor d f s).cp = s.cp := by
  unfold setFlagsFor; split <;> rfl
@[simp] theorem setFlagsFor_sp (d : Addr) (f : Flags) (s : State) : (setFlagsFor d f s).sp = s.sp := by
  unfold setFlagsFor; split <;> rfl
@[simp] theorem setFlagsFor_stkov (d : Addr) (f : Flags) (s : State) : (setFlagsFor d f s).stkov = s.stkov := by
  unfold setFlagsFor; split <;> rfl
@[simp] theorem setFlagsFor_stkun (d : Addr) (f : Flags) (s : State) : (setFlagsFor d f s).stkun = s.stkun := by
  unfold setFlagsFor; split <;> rfl
@[simp] theorem setFlagsFor_dpp0 (d : Addr) (f : Flags) (s : State) : (setFlagsFor d f s).dpp0 = s.dpp0 := by
  unfold setFlagsFor; split <;> rfl
@[simp] theorem setFlagsFor_dpp1 (d : Addr) (f : Flags) (s : State) : (setFlagsFor d f s).dpp1 = s.dpp1 := by
  unfold setFlagsFor; split <;> rfl
@[simp] theorem setFlagsFor_dpp2 (d : Addr) (f : Flags) (s : State) : (setFlagsFor d f s).dpp2 = s.dpp2 := by
  unfold setFlagsFor; split <;> rfl
@[simp] theorem setFlagsFor_dpp3 (d : Addr) (f : Flags) (s : State) : (setFlagsFor d f s).dpp3 = s.dpp3 := by
  unfold setFlagsFor; split <;> rfl
@[simp] theorem setFlagsFor_mdl (d : Addr) (f : Flags) (s : State) : (setFlagsFor d f s).mdl = s.mdl := by
  unfold setFlagsFor; split <;> rfl
@[simp] theorem setFlagsFor_mdh (d : Addr) (f : Flags) (s : State) : (setFlagsFor d f s).mdh = s.mdh := by
  unfold setFlagsFor; split <;> rfl
@[simp] theorem setFlagsFor_mdc (d : Addr) (f : Flags) (s : State) : (setFlagsFor d f s).mdc = s.mdc := by
  unfold setFlagsFor; split <;> rfl
@[simp] theorem setFlagsFor_syscon (d : Addr) (f : Flags) (s : State) : (setFlagsFor d f s).syscon = s.syscon := by
  unfold setFlagsFor; split <;> rfl
@[simp] theorem setFlagsFor_tfr (d : Addr) (f : Flags) (s : State) : (setFlagsFor d f s).tfr = s.tfr := by
  unfold setFlagsFor; split <;> rfl
@[simp] theorem setFlagsFor_extCount (d : Addr) (f : Flags) (s : State) : (setFlagsFor d f s).extCount = s.extCount := by
  unfold setFlagsFor; split <;> rfl
@[simp] theorem setFlagsFor_extEsfr (d : Addr) (f : Flags) (s : State) : (setFlagsFor d f s).extEsfr = s.extEsfr := by
  unfold setFlagsFor; split <;> rfl
@[simp] theorem setFlagsFor_extOvr (d : Addr) (f : Flags) (s : State) : (setFlagsFor d f s).extOvr = s.extOvr := by
  unfold setFlagsFor; split <;> rfl
@[simp] theorem setFlagsFor_run (d : Addr) (f : Flags) (s : State) : (setFlagsFor d f s).run = s.run := by
  unfold setFlagsFor; split <;> rfl
@[simp] theorem setFlagsFor_initDone (d : Addr) (f : Flags) (s : State) : (setFlagsFor d f s).initDone = s.initDone := by
  unfold setFlagsFor; split <;> rfl
@[simp] theorem setFlagsFor_wdtEnabled (d : Addr) (f : Flags) (s : State) : (setFlagsFor d f s).wdtEnabled = s.wdtEnabled := by
  unfold setFlagsFor; split <;> rfl
@[simp] theorem setFlagsFor_wdtLocked (d : Addr) (f : Flags) (s : State) : (setFlagsFor d f s).wdtLocked = s.wdtLocked := by
  unfold setFlagsFor; split <;> rfl
@[simp] theorem setFlagsFor_pendNmi (d : Addr) (f : Flags) (s : State) : (setFlagsFor d f s).pendNmi = s.pendNmi := by
  unfold setFlagsFor; split <;> rfl
@[simp] theorem setFlagsFor_pendStkof (d : Addr) (f : Flags) (s : State) : (setFlagsFor d f s).pendStkof = s.pendStkof := by
  unfold setFlagsFor; split <;> rfl
@[simp] theorem setFlagsFor_pendStkuf (d : Addr) (f : Flags) (s : State) : (setFlagsFor d f s).pendStkuf = s.pendStkuf := by
  unfold setFlagsFor; split <;> rfl
@[simp] theorem setFlagsFor_irqs (d : Addr) (f : Flags) (s : State) : (setFlagsFor d f s).irqs = s.irqs := by
  unfold setFlagsFor; split <;> rfl
@[simp] theorem setFlagsFor_par (d : Addr) (f : Flags) (s : State) : (setFlagsFor d f s).par = s.par := by
  unfold setFlagsFor; split <;> rfl
@[simp] theorem setFlagsFor_nmiPinLow (d : Addr) (f : Flags) (s : State) : (setFlagsFor d f s).nmiPinLow = s.nmiPinLow := by
  unfold setFlagsFor; split <;> rfl
@[simp] theorem setFlagsFor_inputs (d : Addr) (f : Flags) (s : State) : (setFlagsFor d f s).inputs = s.inputs := by
  unfold setFlagsFor; split <;> rfl
@[simp] theorem setFlagsFor_events (d : Addr) (f : Flags) (s : State) : (setFlagsFor d f s).events = s.events := by
  unfold setFlagsFor; split <;> rfl
@[simp] theorem setFlagsFor_draws (d : Addr) (f : Flags) (s : State) : (setFlagsFor d f s).draws = s.draws := by
  unfold setFlagsFor; split <;> rfl
@[simp] theorem setFlagsFor_hazIn (d : Addr) (f : Flags) (s : State) : (setFlagsFor d f s).hazIn = s.hazIn := by
  unfold setFlagsFor; split <;> rfl
@[simp] theorem setFlagsFor_hazOut (d : Addr) (f : Flags) (s : State) : (setFlagsFor d f s).hazOut = s.hazOut := by
  unfold setFlagsFor; split <;> rfl
@[simp] theorem setFlagsFor_arbHist (d : Addr) (f : Flags) (s : State) : (setFlagsFor d f s).arbHist = s.arbHist := by
  unfold setFlagsFor; split <;> rfl
@[simp] theorem setFlagsFor_frames (d : Addr) (f : Flags) (s : State) : (setFlagsFor d f s).frames = s.frames := by
  unfold setFlagsFor; split <;> rfl
@[simp] theorem setFlagsFor_retrapB (d : Addr) (f : Flags) (s : State) : (setFlagsFor d f s).retrapB = s.retrapB := by
  unfold setFlagsFor; split <;> rfl

@[simp] theorem leaveFrame_mem (s : State) : (leaveFrame s).mem = s.mem := by
  unfold leaveFrame; split <;> rfl
@[simp] theorem leaveFrame_ip (s : State) : (leaveFrame s).ip = s.ip := by
  unfold leaveFrame; split <;> rfl
@[simp] theorem leaveFrame_csp (s : State) : (leaveFrame s).csp = s.csp := by
  unfold leaveFrame; split <;> rfl
@[simp] theorem leaveFrame_psw (s : State) : (leaveFrame s).psw = s.psw := by
  unfold leaveFrame; split <;> rfl
@[simp] theorem leaveFrame_cp (s : State) : (leaveFrame s).cp = s.cp := by
  unfold leaveFrame; split <;> rfl
@[simp] theorem leaveFrame_sp (s : State) : (leaveFrame s).sp = s.sp := by
  unfold leaveFrame; split <;> rfl
@[simp] theorem leaveFrame_stkov (s : State) : (leaveFrame s).stkov = s.stkov := by
  unfold leaveFrame; split <;> rfl
@[simp] theorem leaveFrame_stkun (s : State) : (leaveFrame s).stkun = s.stkun := by
  unfold leaveFrame; split <;> rfl
@[simp] theorem leaveFrame_dpp0 (s : State) : (leaveFrame s).dpp0 = s.dpp0 := by
  unfold leaveFrame; split <;> rfl
@[simp] theorem leaveFrame_dpp1 (s : State) : (leaveFrame s).dpp1 = s.dpp1 := by
  unfold leaveFrame; split <;> rfl
@[simp] theorem leaveFrame_dpp2 (s : State) : (leaveFrame s).dpp2 = s.dpp2 := by
  unfold leaveFrame; split <;> rfl
@[simp] theorem leaveFrame_dpp3 (s : State) : (leaveFrame s).dpp3 = s.dpp3 := by
  unfold leaveFrame; split <;> rfl
@[simp] theorem leaveFrame_mdl (s : State) : (leaveFrame s).mdl = s.mdl := by
  unfold leaveFrame; split <;> rfl
@[simp] theorem leaveFrame_mdh (s : State) : (leaveFrame s).mdh = s.mdh := by
  unfold leaveFrame; split <;> rfl
@[simp] theorem leaveFrame_mdc (s : State) : (leaveFrame s).mdc = s.mdc := by
  unfold leaveFrame; split <;> rfl
@[simp] theorem leaveFrame_syscon (s : State) : (leaveFrame s).syscon = s.syscon := by
  unfold leaveFrame; split <;> rfl
@[simp] theorem leaveFrame_tfr (s : State) : (leaveFrame s).tfr = s.tfr := by
  unfold leaveFrame; split <;> rfl
@[simp] theorem leaveFrame_extCount (s : State) : (leaveFrame s).extCount = s.extCount := by
  unfold leaveFrame; split <;> rfl
@[simp] theorem leaveFrame_extEsfr (s : State) : (leaveFrame s).extEsfr = s.extEsfr := by
  unfold leaveFrame; split <;> rfl
@[simp] theorem leaveFrame_extOvr (s : State) : (leaveFrame s).extOvr = s.extOvr := by
  unfold leaveFrame; split <;> rfl
@[simp] theorem leaveFrame_run (s : State) : (leaveFrame s).run = s.run := by
  unfold leaveFrame; split <;> rfl
@[simp] theorem leaveFrame_initDone (s : State) : (leaveFrame s).initDone = s.initDone := by
  unfold leaveFrame; split <;> rfl
@[simp] theorem leaveFrame_wdtEnabled (s : State) : (leaveFrame s).wdtEnabled = s.wdtEnabled := by
  unfold leaveFrame; split <;> rfl
@[simp] theorem leaveFrame_wdtLocked (s : State) : (leaveFrame s).wdtLocked = s.wdtLocked := by
  unfold leaveFrame; split <;> rfl
@[simp] theorem leaveFrame_irqs (s : State) : (leaveFrame s).irqs = s.irqs := by
  unfold leaveFrame; split <;> rfl
@[simp] theorem leaveFrame_par (s : State) : (leaveFrame s).par = s.par := by
  unfold leaveFrame; split <;> rfl
@[simp] theorem leaveFrame_nmiPinLow (s : State) : (leaveFrame s).nmiPinLow = s.nmiPinLow := by
  unfold leaveFrame; split <;> rfl
@[simp] theorem leaveFrame_inputs (s : State) : (leaveFrame s).inputs = s.inputs := by
  unfold leaveFrame; split <;> rfl
@[simp] theorem leaveFrame_events (s : State) : (leaveFrame s).events = s.events := by
  unfold leaveFrame; split <;> rfl
@[simp] theorem leaveFrame_draws (s : State) : (leaveFrame s).draws = s.draws := by
  unfold leaveFrame; split <;> rfl
@[simp] theorem leaveFrame_hazIn (s : State) : (leaveFrame s).hazIn = s.hazIn := by
  unfold leaveFrame; split <;> rfl
@[simp] theorem leaveFrame_hazOut (s : State) : (leaveFrame s).hazOut = s.hazOut := by
  unfold leaveFrame; split <;> rfl
@[simp] theorem leaveFrame_arbHist (s : State) : (leaveFrame s).arbHist = s.arbHist := by
  unfold leaveFrame; split <;> rfl

/-- The bits of a word with one bit set. -/
theorem bitAt_getLsbD {k i : Nat} (hi : i < 16) : (bitAt k).getLsbD i = decide (i = k) := by
  unfold bitAt
  simp only [BitVec.getLsbD_shiftLeft, hi, decide_true, Bool.true_and]
  by_cases h : i < k
  · simp [h]; omega
  · by_cases e : i = k
    · subst e; simp
    · have h0 : i - k ≠ 0 := by omega
      simp [h, e, h0]

/-- The bits of a word with one bit replaced. -/
theorem putBit_getLsbD (w : Word) {k i : Nat} (b : Bool) (hi : i < 16) :
    (putBit w k b).getLsbD i = if i = k then b else w.getLsbD i := by
  unfold putBit
  simp only [BitVec.getLsbD_or, BitVec.getLsbD_and, BitVec.getLsbD_not, hi, decide_true, Bool.true_and, bitAt_getLsbD hi]
  by_cases e : i = k
  · subst e
    cases b
    · simp
    · simp [bitAt_getLsbD hi]
  · cases b
    · simp [e]
    · simp [e, bitAt_getLsbD hi]

/-- The flags written are the flags read, where no two share a bit. -/
theorem flagsOf_putFlags {p : Params} (h : p.Legal) (psw : Word) (f : Flags) :
    flagsOf p.psw (putFlags p.psw psw f) = f := by
  have hn := h.flags
  simp only [List.nodup_cons, List.mem_cons, not_or] at hn
  obtain ⟨⟨nc, nv, nz, ne, -⟩, ⟨cv, cz, ce, -⟩, ⟨vz, ve, -⟩, ⟨ze, -⟩, -⟩ := hn
  unfold flagsOf putFlags
  simp only [putBit_getLsbD _ _ (Fin.isLt _), if_true, nc, nv, nz, ne, cv, cz, ce, vz, ve, ze, if_false]

end Sys2Proof.Machine
end

