-- ==== Sys2Proof/Laws/Memory.lean ====
section
/-!
SUPPORT. The laws of memory: a read after a write, the bytes a write leaves alone, and the canonical form that every
memory operation keeps.
-/

namespace Sys2Proof.Machine

theorem cellAt_putCell_same (m : List Host.Cell) (k : Nat) (v : Byte) : cellAt (putCell m k v) k = some v := by
  induction m with
  | nil => simp [putCell, cellAt]
  | cons c rest ih =>
    obtain ⟨a, u⟩ := c
    unfold putCell
    split
    · simp [cellAt]
    · split
      · simp [cellAt]
      · have hne : a ≠ k := by omega
        simp [cellAt, hne, ih]

theorem cellAt_putCell_other (m : List Host.Cell) (k j : Nat) (v : Byte) (h : j ≠ k) :
    cellAt (putCell m k v) j = cellAt m j := by
  induction m with
  | nil => simp [putCell, cellAt, h.symm]
  | cons c rest ih =>
    obtain ⟨a, u⟩ := c
    unfold putCell
    split
    · simp [cellAt, h.symm]
    · split
      · rename_i _ hk
        subst hk
        simp [cellAt, h.symm]
      · simp [cellAt, ih]

/-- A byte read after a byte write. -/
theorem byteAt_setByte (s : State) (a b : Addr) (v : Byte) :
    byteAt (setByte s a v) b = if b = a then v else byteAt s b := by
  unfold byteAt
  split
  · next h => subst h; simp [cellAt_putCell_same]
  · next h =>
    have hne : b.toNat ≠ a.toNat := fun e => h (BitVec.eq_of_toNat_eq e)
    simp [cellAt_putCell_other _ _ _ _ hne]

theorem risingFrom_mono (m : List Host.Cell) (lo lo' : Nat) (h : lo' ≤ lo) (hm : risingFrom lo m = true) :
    risingFrom lo' m = true := by
  cases m with
  | nil => rfl
  | cons c rest =>
    obtain ⟨a, u⟩ := c
    simp only [risingFrom, Bool.and_eq_true, decide_eq_true_eq] at hm ⊢
    exact ⟨⟨by omega, hm.1.2⟩, hm.2⟩

theorem risingFrom_putCell (m : List Host.Cell) (lo k : Nat) (v : Byte) (hk : lo ≤ k) (hb : k < 2 ^ 24)
    (hm : risingFrom lo m = true) : risingFrom lo (putCell m k v) = true := by
  induction m generalizing lo with
  | nil => simp [putCell, risingFrom]; omega
  | cons c rest ih =>
    obtain ⟨a, u⟩ := c
    simp only [risingFrom, Bool.and_eq_true, decide_eq_true_eq] at hm
    unfold putCell
    split
    · simp only [risingFrom, Bool.and_eq_true, decide_eq_true_eq]
      exact ⟨⟨hk, hb⟩, ⟨by omega, hm.1.2⟩, hm.2⟩
    · split
      · next he =>
        subst he
        simp only [risingFrom, Bool.and_eq_true, decide_eq_true_eq]
        exact ⟨⟨hk, hb⟩, hm.2⟩
      · simp only [risingFrom, Bool.and_eq_true, decide_eq_true_eq]
        exact ⟨hm.1, ih (a + 1) (by omega) hm.2⟩

/-- Setting a byte keeps the canonical form. -/
theorem setByte_wf (s : State) (a : Addr) (v : Byte) (h : Memory.wf s.mem = true) :
    Memory.wf (setByte s a v).mem = true :=
  risingFrom_putCell _ _ _ _ (Nat.zero_le _) a.isLt h

/-- Setting a word keeps the canonical form. -/
theorem setWord_wf (s : State) (a : Addr) (v : Word) (h : Memory.wf s.mem = true) :
    Memory.wf (setWord s a v).mem = true :=
  setByte_wf _ _ _ (setByte_wf _ _ _ h)

/-- The memory after reset is canonical. -/
theorem reset_memory_wf : Memory.wf State.reset.mem = true := rfl

/-- A byte read after a word write. -/
theorem byteAt_setWord (s : State) (a b : Addr) (v : Word) :
    byteAt (setWord s a v) b = if b = a + 1 then hiByte v else if b = a then loByte v else byteAt s b := by
  simp [setWord, byteAt_setByte]

/-- A byte depends on the memory alone. -/
theorem byteAt_congr (s t : State) (h : s.mem = t.mem) (a : Addr) : byteAt s a = byteAt t a := by
  simp [byteAt, h]

theorem joinBytes_hi_lo (w : Word) : joinBytes (hiByte w) (loByte w) = w := by
  unfold joinBytes hiByte loByte
  ext i hi
  simp only [BitVec.getElem_append, BitVec.getElem_extractLsb']
  split
  · simp [BitVec.getLsbD_eq_getElem hi]
  · have h8 : 8 + (i - 8) = i := by omega
    simp [h8, BitVec.getLsbD_eq_getElem hi]

/-- A word read after a word write to the same address. -/
theorem wordAt_setWord (s : State) (a : Addr) (v : Word) : wordAt (setWord s a v) a = v := by
  simp [wordAt, byteAt_setWord, joinBytes_hi_lo]

end Sys2Proof.Machine
end

