-- ==== Sys2Proof/Laws/Access.lean ====
section
/-!
SUPPORT. What each shared operation answers where the terms of Safety.lean say what an access finds and leaves: one
lemma per operation, which proofs cite instead of unfolding it.
-/

namespace Sys2Proof.Machine

@[simp] theorem bind_ok {α β : Type} (v : α) (s : State) (f : α → State → Res β) : (Res.ok v s).bind f = f v s := rfl
@[simp] theorem bind_refused {α β : Type} (r : Refusal) (f : α → State → Res β) :
    (Res.refused r : Res α).bind f = .refused r := rfl
@[simp] theorem bind_fault {α β : Type} (r : Fault) (f : α → State → Res β) :
    (Res.fault r : Res α).bind f = .fault r := rfl
@[simp] theorem bind_trap {α β : Type} (t : ClassB) (s : State) (f : α → State → Res β) :
    (Res.trap t s : Res α).bind f = .trap t s := rfl

/-! Even addresses, and the CPU registers at theirs -/

theorem getLsbD_evenMask {k : Nat} (hk : k < 24) : (0xFFFFFE#24 : Addr).getLsbD k = decide (k ≠ 0) := by
  revert k
  decide

theorem evenAddr_of_even {a : Addr} (h : isOdd a = false) : evenAddr a = a := by
  refine BitVec.eq_of_getLsbD_eq fun k hk => ?_
  rw [evenAddr, BitVec.getLsbD_and, getLsbD_evenMask hk]
  by_cases h0 : k = 0
  · subst h0
    simpa [isOdd] using h.symm
  · simp [h0]

theorem add_one_of_even {a : Addr} (h : isOdd a = false) : a + 1 = a ||| 1#24 := by
  refine BitVec.add_eq_or_of_and_eq_zero _ _ (BitVec.eq_of_getLsbD_eq fun k hk => ?_)
  by_cases h0 : k = 0
  · subst h0
    rw [BitVec.getLsbD_and, show a.getLsbD 0 = false from h]
    rfl
  · simp [h0]

theorem isOdd_succ_of_even {a : Addr} (h : isOdd a = false) : isOdd (a + 1) = true := by
  rw [add_one_of_even h]
  simp [isOdd]

theorem evenAddr_succ_of_even {a : Addr} (h : isOdd a = false) : evenAddr (a + 1) = a := by
  rw [add_one_of_even h]
  refine Eq.trans (BitVec.eq_of_getLsbD_eq fun k hk => ?_) (evenAddr_of_even h)
  rw [evenAddr, evenAddr, BitVec.getLsbD_and, BitVec.getLsbD_and, getLsbD_evenMask hk]
  by_cases h0 : k = 0 <;> simp [h0]

theorem find_of_nodup_map {f : CpuReg → Addr} (r : CpuReg) :
    ∀ l : List CpuReg, (l.map f).Nodup → r ∈ l → l.find? (fun q => f q == f r) = some r
  | [], _, h => absurd h (by simp)
  | q :: l, hn, h => by
    rw [List.map_cons, List.nodup_cons] at hn
    by_cases hq : q = r
    · simp [hq]
    · have hr : r ∈ l := (List.mem_cons.mp h).resolve_left fun h => hq h.symm
      have hf : f q ≠ f r := fun h => hn.1 (h ▸ List.mem_map_of_mem hr)
      rw [List.find?_cons_of_neg (by simpa using hf)]
      exact find_of_nodup_map r l hn.2 hr

/-- With parameters that describe a machine, the register found at a register's address is that register. -/
theorem cpuRegAt_sfrAddr {p : Params} (h : p.Legal) (r : CpuReg) : cpuRegAt p.sfr (sfrAddr p.sfr r) = some r :=
  find_of_nodup_map r allCpuRegs h.registers (by cases r <;> decide)

/-- Both bytes of a register's word hold that register. -/
theorem place_of_sfrAddr {s : State} {r : CpuReg} {a : Addr} (h : s.par.Legal)
    (ha : evenAddr a = sfrAddr s.par.sfr r) : place s a = .reg r := by
  simp [place, ha, cpuRegAt_sfrAddr h]

/-! Reads and stores -/

/-- A read where `peek` finds a value answers it and changes nothing. -/
theorem memRead_of_peek {w : Width} {s : State} {a : Addr} {v : BitVec w.bits} (h : peek w s a = some v) :
    memRead w a s = .ok v s := by
  cases w with
  | byte =>
    simp only [peek] at h
    split at h
    · exact absurd h (by simp)
    · next hb =>
      simp only [memRead, loadByte, hb]
      revert h
      cases place s a <;> simp
  | word =>
    simp only [peek] at h
    split at h
    · exact absurd h (by simp)
    · next hb =>
      split at h
      · exact absurd h (by simp)
      · next ho =>
        simp only [memRead, loadWord, hb, ho]
        revert h
        cases place s a <;> simp

/-- A word store where `pokeWord` has a result leaves it. -/
theorem storeWord_of_pokeWord {s t : State} {a : Addr} {v : Word} (h : pokeWord s a v = some t) :
    storeWord a v s = .ok () t := by
  unfold pokeWord at h
  split at h
  · exact absurd h (by simp)
  · next hb =>
    simp only [Bool.or_eq_true, not_or, Bool.not_eq_true] at hb
    simp only [storeWord, hb.2, writeCpuReg]
    revert h
    cases place s a with
    | reg r =>
      cases hc : cpuRegRefusal r v s <;> simp [hc]
    | _ => simp

theorem pokeWord_even {s t : State} {a : Addr} {v : Word} (h : pokeWord s a v = some t) : isOdd a = false := by
  unfold pokeWord at h
  split at h
  · exact absurd h (by simp)
  · next hb =>
    simp only [Bool.or_eq_true, not_or, Bool.not_eq_true] at hb
    exact hb.1

/-- A byte store where `pokeByte` has a result leaves it. -/
theorem storeByte_of_pokeByte {route : ByteRoute} {s t : State} {a : Addr} {v : Byte}
    (h : pokeByte route s a v = some t) : storeByte route a v s = .ok () t := by
  unfold pokeByte at h
  split at h
  · exact absurd h (by simp)
  · next hb =>
    simp only [storeByte, hb, writeCpuReg]
    revert h
    cases place s a with
    | reg r =>
      cases hc : cpuRegRefusal r (byteIntoReg route r a v s) s <;> simp [hc]
    | _ => simp

/-- A store where `pokeBy` has a result leaves it. -/
theorem storeBy_of_pokeBy {route : ByteRoute} {w : Width} {s t : State} {nx : Word} {a : Addr} {v : BitVec w.bits}
    (h : pokeBy route w s nx a v = some t) : storeBy route w nx a v s = .ok () t := by
  cases w with
  | byte =>
    simp only [pokeBy] at h
    split at h
    · exact absurd h (by simp)
    · next hw =>
      simp only [storeBy, hw]
      exact storeByte_of_pokeByte h
  | word =>
    simp only [pokeBy] at h
    split at h
    · exact absurd h (by simp)
    · next hw =>
      simp only [storeBy, hw, pokeWord_even h]
      simpa using storeWord_of_pokeWord h

theorem memWrite_of_poke {w : Width} {s t : State} {nx : Word} {a : Addr} {v : BitVec w.bits}
    (h : poke w s nx a v = some t) : memWrite w nx a v s = .ok () t :=
  storeBy_of_pokeBy h

/-- A word is stored the same way however its address is named. -/
theorem storeBy_word (route : ByteRoute) (nx : Word) (a : Addr) (v : Word) (s : State) :
    storeBy route .word nx a v s = memWrite .word nx a v s := rfl

theorem pokeBy_word (route : ByteRoute) (s : State) (nx : Word) (a : Addr) (v : Word) :
    pokeBy route .word s nx a v = poke .word s nx a v := rfl

/-- A store to an operand where `pokeLoc` has a result leaves it. -/
theorem storeLoc_of_pokeLoc {w : Width} {l : Loc} {s t : State} {nx : Word} {d : Addr} {v : BitVec w.bits}
    (h : pokeLoc w l s nx d v = some t) : storeLoc w l nx d v s = .ok () t := by
  unfold pokeLoc at h
  unfold storeLoc
  split at h
  · next hs => rw [if_pos hs]; exact memWrite_of_poke (w := .word) h
  · next hs => rw [if_neg hs]; exact storeBy_of_pokeBy h

/-- Only a byte written through `reg` is stored at another width than the instruction's. -/
@[simp] theorem storesWord_gpr (w : Width) (n : RegNum) : storesWord w (.gpr n) = false := by cases w <;> rfl
@[simp] theorem storesWord_ind (w : Width) (n : RegNum) : storesWord w (.ind n) = false := by cases w <;> rfl
@[simp] theorem storeWidth_gpr (w : Width) (n : RegNum) : storeWidth w (.gpr n) = w := by simp [storeWidth]
@[simp] theorem storeWidth_ind (w : Width) (n : RegNum) : storeWidth w (.ind n) = w := by simp [storeWidth]
@[simp] theorem storeLoc_ind (w : Width) (k : RegNum) (nx : Word) (d : Addr) (v : BitVec w.bits) (s : State) :
    storeLoc w (.ind k) nx d v s = memWrite w nx d v s := by simp [storeLoc, memWrite, byteRoute]
@[simp] theorem pokeLoc_ind (w : Width) (k : RegNum) (s : State) (nx : Word) (d : Addr) (v : BitVec w.bits) :
    pokeLoc w (.ind k) s nx d v = poke w s nx d v := by simp [pokeLoc, poke, byteRoute]

/-- A store changes no parameter. -/
theorem pokeWord_par {s t : State} {a : Addr} {v : Word} (h : pokeWord s a v = some t) : t.par = s.par := by
  unfold pokeWord at h
  split at h
  · exact absurd h (by simp)
  · revert h
    cases place s a with
    | reg r => simp only; split <;> simp; rintro rfl; simp
    | irq k => simp; rintro rfl; rfl
    | ram => simp; rintro rfl; rfl
    | _ => simp

theorem pokeByte_par {route : ByteRoute} {s t : State} {a : Addr} {v : Byte} (h : pokeByte route s a v = some t) :
    t.par = s.par := by
  unfold pokeByte at h
  split at h
  · exact absurd h (by simp)
  · revert h
    cases place s a with
    | reg r => simp only; split <;> simp; rintro rfl; simp
    | irq k => cases isOdd a <;> simp <;> rintro rfl <;> rfl
    | ram => simp; rintro rfl; rfl
    | _ => simp

theorem pokeBy_par {route : ByteRoute} {w : Width} {s t : State} {nx : Word} {a : Addr} {v : BitVec w.bits}
    (h : pokeBy route w s nx a v = some t) : t.par = s.par := by
  cases w <;> simp only [pokeBy] at h <;> split at h
  · exact absurd h (by simp)
  · exact pokeByte_par h
  · exact absurd h (by simp)
  · exact pokeWord_par h

theorem pokeLoc_par {w : Width} {l : Loc} {s t : State} {nx : Word} {d : Addr} {v : BitVec w.bits}
    (h : pokeLoc w l s nx d v = some t) : t.par = s.par := by
  unfold pokeLoc at h
  split at h
  · exact pokeBy_par (w := .word) h
  · exact pokeBy_par h

theorem pokePtr_par {s t : State} {nx : Word} {n : RegNum} {v : Word} (h : pokePtr s nx n v = some t) :
    t.par = s.par := by
  obtain ⟨a, _, hv⟩ := Option.bind_eq_some_iff.mp h
  exact pokeBy_par (w := .word) hv

/-- A GPR's address, where the bank may be used. -/
theorem gprAddr_of_loc {w : Width} {s : State} {n : RegNum} {a : Addr} (h : gprLoc w s n = some a) :
    gprAddr w n s = .ok a s := by
  unfold gprLoc at h
  split at h
  · exact absurd h (by simp)
  · next hb =>
    simp only [Bool.or_eq_true, Bool.not_eq_true', not_or, Bool.not_eq_true, Bool.not_eq_false] at hb
    simp only [gprAddr, hb.1, hb.2]
    cases w <;> simpa using h

/-- A GPR's value, where the bank may be used. -/
theorem readGpr_of_val {w : Width} {s : State} {n : RegNum} {v : BitVec w.bits} (h : gprVal w s n = some v) :
    readGpr w n s = .ok v s := by
  unfold gprVal at h
  obtain ⟨a, ha, hv⟩ := Option.bind_eq_some_iff.mp h
  simp [readGpr, gprAddr_of_loc ha, memRead_of_peek hv]

/-- A pointer written where its register lies. -/
theorem writeGpr_of_pokePtr {s t : State} {nx : Word} {n : RegNum} {v : Word} (h : pokePtr s nx n v = some t) :
    writeGpr .word nx n v s = .ok () t := by
  obtain ⟨a, ha, hv⟩ := Option.bind_eq_some_iff.mp h
  simp [writeGpr, gprAddr_of_loc (w := .word) ha, storeBy_word, memWrite_of_poke (w := .word) hv]

/-- A long address through its DPP or the override. -/
theorem dataAddr_of_loc {s : State} {a : Word} {p : Addr} (h : longLoc s a = some p) : dataAddr a s = .ok p s := by
  unfold longLoc at h
  unfold dataAddr
  revert h
  cases s.extOvr with
  | none =>
    simp only
    split
    · intro h; exact absurd h (by simp)
    · intro h; simp_all
  | page q => intro h; simp_all
  | seg g => intro h; simp_all

/-- A short address. -/
theorem shortAddr_of_loc {w : Width} {s : State} {rr : ShortReg} {p : Addr} (h : shortLoc w s rr = some p) :
    shortAddr w rr s = .ok p s := by
  unfold shortLoc at h
  unfold shortAddr
  split at h
  · next hr => simp only [hr]; exact gprAddr_of_loc h
  · next hr => simp_all

/-- A bit word's address. -/
theorem bitWordAddr_of_loc {s : State} {qq : BitOff} {p : Addr} (h : bitLoc s qq = some p) :
    bitWordAddr qq s = .ok p s := by
  unfold bitLoc at h
  unfold bitWordAddr
  split at h
  · next hr => simp_all
  · next hr =>
    split at h
    · next hq => simp_all
    · next hq => simp only [hr, hq]; exact gprAddr_of_loc h

/-- An operand's address. -/
theorem locAddr_of_loc {w : Width} {s : State} {l : Loc} {p : Addr} (h : operandLoc w s l = some p) :
    locAddr w l s = .ok p s := by
  cases l with
  | gpr n => exact gprAddr_of_loc h
  | short rr => exact shortAddr_of_loc h
  | long a => exact dataAddr_of_loc h
  | ind k =>
    obtain ⟨q, hq, hp⟩ := Option.bind_eq_some_iff.mp h
    simp [locAddr, readGpr_of_val hq, dataAddr_of_loc hp]
  | disp k d =>
    obtain ⟨q, hq, hp⟩ := Option.bind_eq_some_iff.mp h
    simp [locAddr, readGpr_of_val hq, dataAddr_of_loc hp]

/-- The value of an operand in a register or in memory. -/
theorem readLoc_of_val {w : Width} {s : State} {l : Loc} {v : BitVec w.bits}
    (h : (operandLoc w s l).bind (peek w s) = some v) : readLoc w l s = .ok v s := by
  obtain ⟨p, hp, hv⟩ := Option.bind_eq_some_iff.mp h
  simp [readLoc, locAddr_of_loc hp, memRead_of_peek hv]

/-- The value of a source operand. -/
theorem readSrc_of_val {w : Width} {s : State} {o : Src} {v : BitVec w.bits} (h : sourceVal w s o = some v) :
    readSrc w o s = .ok v s := by
  cases o with
  | imm d =>
    simp only [sourceVal, Option.some.injEq] at h
    simp [readSrc, immValue, h]
  | loc l => exact readLoc_of_val h

/-- A bit operand. -/
theorem readBit_of_val {s : State} {qq : BitOff} {v : Word} (q : BitPos) (h : bitWordVal s qq = some v) :
    readBit qq q s = .ok (v.getLsbD q.toNat) s := by
  obtain ⟨p, hp, hv⟩ := Option.bind_eq_some_iff.mp h
  simp [readBit, bitWordAddr_of_loc hp, memRead_of_peek (w := .word) hv]

/-- The check after a push. -/
theorem checkOverflow_of_limit {s t : State} (h : lowLimit s = some t) : checkOverflow s = .ok () t := by
  unfold lowLimit at h
  unfold checkOverflow
  revert h
  split
  · split <;> simp
  · simp

/-- The check after a pop. -/
theorem checkUnderflow_of_limit {s t : State} (h : highLimit s = some t) : checkUnderflow s = .ok () t := by
  unfold highLimit at h
  unfold checkUnderflow
  revert h
  split
  · split <;> simp
  · simp

/-- A push by an instruction. -/
theorem push_of_pushed {s t : State} {nx v : Word} (h : pushed s nx v = some t) : push nx v s = .ok () t := by
  unfold pushed at h
  split at h
  · exact absurd h (by simp)
  · next hz =>
    obtain ⟨u, hu, hl⟩ := Option.bind_eq_some_iff.mp h
    simp [push, hz, memWrite_of_poke (w := .word) hu, checkOverflow_of_limit hl]

/-- A pop. -/
theorem pop_of_popped {s t : State} {v : Word} (h : popped s = some (v, t)) : pop s = .ok v t := by
  unfold popped at h
  split at h
  · exact absurd h (by simp)
  · next hz =>
    obtain ⟨u, hu, hl⟩ := Option.bind_eq_some_iff.mp h
    obtain ⟨x, hx, he⟩ := Option.map_eq_some_iff.mp hl
    simp only [Prod.mk.injEq] at he
    obtain ⟨rfl, rfl⟩ := he
    simp [pop, hz, memRead_of_peek (w := .word) hu, checkUnderflow_of_limit hx]

/-- A push of a trap entry. -/
theorem entryPush_of_pushed {s t : State} {v : Word} (h : entryPushed s v = some t) : entryPush v s = .ok () t := by
  obtain ⟨u, hu, hl⟩ := Option.bind_eq_some_iff.mp h
  have ho : isOdd (near (s.sp - 2#16)) = false := pokeWord_even hu
  have ho' : isOdd (s.sp - 2#16) = false := by
    simpa [isOdd, near] using ho
  simp [entryPush, ho', storeWord_of_pokeWord hu, checkOverflow_of_limit hl]

/-- The entry of a trap or an interrupt. -/
theorem enter_of_entered {s t : State} {f : Frame} {number : TrapNum} {level : BitVec 4} {ret : Word}
    (h : entered s f number level ret = some t) : enter f number level ret s = .ok () t := by
  unfold entered at h
  obtain ⟨s1, h1, h⟩ := Option.bind_eq_some_iff.mp h
  obtain ⟨s2, h2, h⟩ := Option.bind_eq_some_iff.mp h
  obtain ⟨s3, h3, h⟩ := Option.bind_eq_some_iff.mp h
  simp only [Option.some.injEq] at h
  subst h
  have hc : entryPushCsp s1 = .ok () s2 := by
    unfold entryPushCsp
    cases hs : sgtdis s1 with
    | false =>
      simp only [hs] at h2
      exact entryPush_of_pushed h2
    | true =>
      simp only [hs, if_true, Option.some.injEq] at h2
      rw [h2]
      rfl
  simp [enter, entryPush_of_pushed h1, hc, entryPush_of_pushed h3, arrive]

/-- A class B trap raised. -/
theorem raiseB_of_entered {s u : State} {k : ClassB} {ret : Word} (h : enteredB s k ret = some u) :
    raiseB k ret s = .ok () u := by
  unfold enteredB at h
  split at h
  · next hz =>
    have hf : (s.tfr ||| classBFlag s.par.traps k) &&& classAFlags s.par.traps = 0#16 := by
      rw [BitVec.and_comm, BitVec.and_or_distrib_left, BitVec.and_comm, hz.1, BitVec.and_comm, hz.2]
      rfl
    simp [raiseB, enterB, hf, enter_of_entered h]
  · exact absurd h (by simp)

/-- An instruction whose body answers the next IP. -/
theorem runInstr_ok {len : Word} {body : Word → State → Res Word} {s t : State} {x : Word}
    (h : body (s.ip + len) s = .ok x t) : runInstr len body s = .next { t with ip := x } := by
  simp [runInstr, h]

/-- An instruction that does not transfer control. -/
theorem seqInstr_ok {len : Word} {body : Word → State → Res Unit} {s t : State}
    (h : body (s.ip + len) s = .ok () t) : seqInstr len body s = .next { t with ip := s.ip + len } := by
  simp [seqInstr, runInstr, h]

/-- An instruction whose body raises a class B trap. -/
theorem runInstr_trap {len : Word} {body : Word → State → Res Word} {s t u : State} {k : ClassB}
    (h : body (s.ip + len) s = .trap k t)
    (he : enteredB t k (stackedIp k s.ip (s.ip + len)) = some u) : runInstr len body s = .next u := by
  simp [runInstr, h, raiseB_of_entered he, outcomeOf]

/-- An instruction that does not transfer control and whose body raises a class B trap. -/
theorem seqInstr_trap {len : Word} {body : Word → State → Res Unit} {s t u : State} {k : ClassB}
    (h : body (s.ip + len) s = .trap k t)
    (he : enteredB t k (stackedIp k s.ip (s.ip + len)) = some u) : seqInstr len body s = .next u :=
  runInstr_trap (by simp [h]) he

end Sys2Proof.Machine
end

