-- ==== Sys2Proof/Laws/Invariant.lean ====
section
/-!
SUPPORT. Each shared operation keeps the invariant, whether it answers or raises a trap: one lemma per operation.
-/

namespace Sys2Proof.Machine

/-- Every state an operation leaves, by answering or by a trap, satisfies a property. -/
def Res.Keeps {α : Type} (P : State → Prop) (x : Res α) : Prop :=
  match x with
  | .ok _ s => P s
  | .trap _ s => P s
  | .fault _ => True
  | .refused _ => True

theorem Res.Keeps.bind {α β : Type} {P : State → Prop} {x : Res α} {f : α → State → Res β} (hx : x.Keeps P)
    (hf : ∀ v s, P s → (f v s).Keeps P) : (x.bind f).Keeps P := by
  cases x with
  | ok v s => exact hf v s hx
  | trap t s => exact hx
  | fault e => trivial
  | refused r => trivial

theorem Res.Keeps.ite {α : Type} {P : State → Prop} {c : Prop} [Decidable c] {x y : Res α} (hx : c → x.Keeps P)
    (hy : ¬ c → y.Keeps P) : (if c then x else y).Keeps P := by
  split
  · next h => exact hx h
  · next h => exact hy h

/-- The invariant looks at ten fields and the parameters only. -/
theorem Inv.congr {s t : State} (h : Inv s) (hm : t.mem = s.mem) (hp : t.psw = s.psw) (ht : t.tfr = s.tfr)
    (hc : t.cp = s.cp) (hs : t.sp = s.sp) (hn : t.extCount = s.extCount) (he : t.extEsfr = s.extEsfr)
    (ho : t.extOvr = s.extOvr) (hi : t.initDone = s.initDone) (hw : t.wdtLocked = s.wdtLocked) (hr : t.par = s.par) :
    Inv t where
  memory := hm ▸ h.memory
  psw := by rw [hp, hr]; exact h.psw
  tfr := by rw [ht, hr]; exact h.tfr
  cp := by rw [hc, hr]; exact h.cp
  sp := by rw [hs]; exact h.sp
  count := by rw [hn]; exact h.count
  modes := by rw [hn, he, ho]; exact h.modes
  locked := by rw [hi, hw]; exact h.locked

/-! Reserved bits -/

theorem and_mask_reserved (v m : Word) : v &&& m &&& ~~~m = 0#16 := by
  simp [BitVec.and_assoc]

theorem or_reserved {v w m : Word} (h : v &&& ~~~m = 0#16) (k : w &&& ~~~m = 0#16) : (v ||| w) &&& ~~~m = 0#16 := by
  rw [BitVec.and_comm, BitVec.and_or_distrib_left, BitVec.and_comm, h, BitVec.and_comm, k]
  rfl

theorem and_reserved {v m : Word} (w : Word) (h : v &&& ~~~m = 0#16) : v &&& w &&& ~~~m = 0#16 := by
  rw [BitVec.and_assoc, BitVec.and_comm w, ← BitVec.and_assoc, h, BitVec.zero_and]

/-- Masks with more bits reserve less. -/
theorem reserved_mono {v m n : Word} (h : v &&& ~~~m = 0#16) : v &&& ~~~(m ||| n) = 0#16 := by
  rw [BitVec.not_or, ← BitVec.and_assoc, h, BitVec.zero_and]

theorem self_reserved (m : Word) : m &&& ~~~m = 0#16 := BitVec.and_not_self m

/-- A bit named in the mask may be set or cleared. -/
theorem putBit_reserved {w m : Word} {k : Nat} (h : w &&& ~~~m = 0#16) (hk : bitAt k &&& ~~~m = 0#16) (b : Bool) :
    putBit w k b &&& ~~~m = 0#16 := by
  unfold putBit
  refine or_reserved (and_reserved _ h) ?_
  cases b
  · simp
  · exact hk

theorem last_reserved (m n : Word) : n &&& ~~~(m ||| n) = 0#16 := by
  rw [BitVec.or_comm]
  exact reserved_mono (self_reserved n)

theorem flagMask_reserved {l : PswLayout} {v : Word} (h : v &&& ~~~(flagMask l) = 0#16) :
    v &&& ~~~(pswMask l) = 0#16 :=
  reserved_mono (reserved_mono (reserved_mono (reserved_mono (reserved_mono h))))

theorem putFlags_reserved {l : PswLayout} {psw : Word} (h : psw &&& ~~~(pswMask l) = 0#16) (f : Flags) :
    putFlags l psw f &&& ~~~(pswMask l) = 0#16 := by
  unfold putFlags
  refine putBit_reserved (putBit_reserved (putBit_reserved (putBit_reserved (putBit_reserved h ?_ _) ?_ _) ?_ _) ?_ _)
    ?_ _ <;> refine flagMask_reserved ?_
  · exact reserved_mono (reserved_mono (reserved_mono (reserved_mono (self_reserved _))))
  · exact reserved_mono (reserved_mono (reserved_mono (last_reserved _ _)))
  · exact reserved_mono (reserved_mono (last_reserved _ _))
  · exact reserved_mono (last_reserved _ _)
  · exact last_reserved _ _

theorem ilvl_inside (v : BitVec 4) (k : Nat) : v.setWidth 16 <<< k &&& ~~~(0x000F#16 <<< k) = 0#16 := by
  have h : v.setWidth 16 &&& 0x000F#16 = v.setWidth 16 := by
    ext i hi
    by_cases h4 : i < 4
    · interval_cases i <;> simp
    · simp [BitVec.getLsbD_of_ge v i (by omega)]
  rw [← h, BitVec.shiftLeft_and_distrib]
  exact and_mask_reserved _ _

theorem withIlvl_reserved {l : PswLayout} {psw : Word} (h : psw &&& ~~~(pswMask l) = 0#16) (v : BitVec 4) :
    withIlvl l psw v &&& ~~~(pswMask l) = 0#16 := by
  unfold withIlvl
  refine or_reserved (and_reserved _ h) ?_
  unfold pswMask
  rw [BitVec.or_comm]
  exact reserved_mono (ilvl_inside v l.ilvl.val)

theorem tfr_or_reserved {t : TrapTable} {v k : Word} (h : v &&& ~~~(tfrMask t) = 0#16)
    (hk : k &&& ~~~(tfrMask t) = 0#16) : (v ||| k) &&& ~~~(tfrMask t) = 0#16 :=
  or_reserved h hk

/-- The flags of NMI, STKOF, STKUF and of each class B trap are bits of TFR. -/
theorem nmiBit_reserved (t : TrapTable) : bitAt t.nmiBit &&& ~~~(tfrMask t) = 0#16 :=
  reserved_mono (reserved_mono (reserved_mono (reserved_mono (reserved_mono (reserved_mono (reserved_mono
    (self_reserved _)))))))

theorem stkofBit_reserved (t : TrapTable) : bitAt t.stkofBit &&& ~~~(tfrMask t) = 0#16 :=
  reserved_mono (reserved_mono (reserved_mono (reserved_mono (reserved_mono (reserved_mono (last_reserved _ _))))))

theorem stkufBit_reserved (t : TrapTable) : bitAt t.stkufBit &&& ~~~(tfrMask t) = 0#16 :=
  reserved_mono (reserved_mono (reserved_mono (reserved_mono (reserved_mono (last_reserved _ _)))))

theorem classBFlag_reserved (t : TrapTable) (k : ClassB) : classBFlag t k &&& ~~~(tfrMask t) = 0#16 := by
  cases k
  · exact reserved_mono (reserved_mono (reserved_mono (reserved_mono (last_reserved _ _))))
  · exact reserved_mono (reserved_mono (reserved_mono (last_reserved _ _)))
  · exact reserved_mono (reserved_mono (last_reserved _ _))
  · exact reserved_mono (last_reserved _ _)

/-- A context pointer with its hardwired bits has them. -/
theorem fixCp_idem (m : CpFixedMask) (v : Word) : fixCp m (fixCp m v) = fixCp m v := by
  unfold fixCp
  ext i hi
  simp only [BitVec.getElem_and, BitVec.getElem_or, BitVec.getElem_not]
  cases v[i] <;> cases m.ones[i] <;> cases m.zeros[i] <;> rfl

theorem fixSp_even (v : Word) : fixSp v &&& 0x0001#16 = 0#16 := by
  unfold fixSp
  rw [BitVec.and_assoc]
  simp

theorem even_iff (v : Word) : v &&& 0x0001#16 = 0#16 ↔ v.toNat % 2 = 0 := by
  constructor
  · intro h
    have := congrArg BitVec.toNat h
    simpa [BitVec.toNat_and, Nat.and_one_is_mod] using this
  · intro h
    apply BitVec.eq_of_toNat_eq
    simpa [BitVec.toNat_and, Nat.and_one_is_mod] using h

theorem even_sub_two {v : Word} (h : v &&& 0x0001#16 = 0#16) : (v - 2#16) &&& 0x0001#16 = 0#16 := by
  rw [even_iff] at h ⊢
  simp only [BitVec.toNat_sub, BitVec.toNat_ofNat]
  omega

theorem even_add_two {v : Word} (h : v &&& 0x0001#16 = 0#16) : (v + 2#16) &&& 0x0001#16 = 0#16 := by
  rw [even_iff] at h ⊢
  simp only [BitVec.toNat_add, BitVec.toNat_ofNat]
  omega

/-! Updates -/

theorem Inv.setFlags {s : State} (h : Inv s) (f : Flags) : Inv (setFlags f s) :=
  { h with psw := putFlags_reserved h.psw f }

theorem Inv.setFlagsFor {s : State} (h : Inv s) (d : Addr) (f : Flags) : Inv (setFlagsFor d f s) := by
  unfold Machine.setFlagsFor
  split
  · exact h
  · exact h.setFlags f

theorem Inv.setByte {s : State} (h : Inv s) (a : Addr) (v : Byte) : Inv (setByte s a v) :=
  { h with memory := setByte_wf _ _ _ h.memory }

theorem Inv.setWord {s : State} (h : Inv s) (a : Addr) (v : Word) : Inv (setWord s a v) :=
  (h.setByte _ _).setByte _ _

theorem Inv.putIrq {s : State} (h : Inv s) (k : Nat) (v : Byte) : Inv (putIrq s k v) :=
  h.congr rfl rfl rfl rfl rfl rfl rfl rfl rfl rfl rfl

theorem Inv.signal {s : State} (h : Inv s) (e : OutEvent) : Inv (signal e s) :=
  h.congr rfl rfl rfl rfl rfl rfl rfl rfl rfl rfl rfl

theorem Inv.draw {s : State} (h : Inv s) (n : Nat) : Inv { s with draws := n } :=
  h.congr rfl rfl rfl rfl rfl rfl rfl rfl rfl rfl rfl

theorem Inv.withIp {s : State} (h : Inv s) (x : Word) : Inv { s with ip := x } :=
  h.congr rfl rfl rfl rfl rfl rfl rfl rfl rfl rfl rfl

theorem Inv.withSp {s : State} (h : Inv s) {x : Word} (hx : x &&& 0x0001#16 = 0#16) : Inv { s with sp := x } :=
  { h with sp := hx }

theorem Inv.putCpuReg {s : State} (h : Inv s) (r : CpuReg) (v : Word) : Inv (putCpuReg r v s) := by
  cases r with
  | cp => exact { h with cp := fixCp_idem _ v }
  | sp => exact { h with sp := fixSp_even v }
  | psw => exact { h with psw := and_mask_reserved v _ }
  | tfr => exact { h with tfr := and_mask_reserved v _ }
  | _ => exact h.congr rfl rfl rfl rfl rfl rfl rfl rfl rfl rfl rfl

/-! Operations -/

theorem writeCpuReg_keeps {s : State} (h : Inv s) (r : CpuReg) (v : Word) : (writeCpuReg r v s).Keeps Inv := by
  unfold writeCpuReg
  split
  · trivial
  · exact h.putCpuReg r v

theorem loadWord_keeps {s : State} (h : Inv s) (a : Addr) : (loadWord a s).Keeps Inv := by
  unfold loadWord
  split
  · trivial
  · split
    · exact h
    · exact h
    · exact h
    · exact h
    · exact (h.signal _).draw _
    · trivial
    · trivial

theorem loadByte_keeps {s : State} (h : Inv s) (a : Addr) : (loadByte a s).Keeps Inv := by
  unfold loadByte
  split
  · trivial
  · split
    · exact h
    · exact h
    · exact h
    · exact h
    · exact (h.signal _).draw _
    · trivial
    · trivial

theorem storeWord_keeps {s : State} (h : Inv s) (a : Addr) (v : Word) : (storeWord a v s).Keeps Inv := by
  unfold storeWord
  split
  · trivial
  · split
    · exact writeCpuReg_keeps h _ _
    · exact h.putIrq _ _
    · exact h.setWord _ _
    · trivial
    · exact h.signal _
    · trivial
    · trivial

theorem storeByte_keeps {s : State} (h : Inv s) (route : ByteRoute) (a : Addr) (v : Byte) :
    (storeByte route a v s).Keeps Inv := by
  unfold storeByte
  split
  · trivial
  · split
    · exact writeCpuReg_keeps h _ _
    · split
      · exact h
      · exact h.putIrq _ _
    · exact h.setByte _ _
    · trivial
    · exact h.signal _
    · trivial
    · trivial

theorem memRead_keeps {s : State} (h : Inv s) (w : Width) (a : Addr) : (memRead w a s).Keeps Inv := by
  cases w with
  | byte => exact loadByte_keeps h a
  | word =>
    simp only [memRead]
    split
    · exact h
    · exact loadWord_keeps h a

theorem storeBy_keeps {s : State} (h : Inv s) (route : ByteRoute) (w : Width) (nx : Word) (a : Addr)
    (v : BitVec w.bits) : (storeBy route w nx a v s).Keeps Inv := by
  cases w with
  | byte =>
    simp only [storeBy]
    split
    · trivial
    · exact storeByte_keeps h route a v
  | word =>
    simp only [storeBy]
    split
    · exact h
    · split
      · trivial
      · exact storeWord_keeps h a v

theorem memWrite_keeps {s : State} (h : Inv s) (w : Width) (nx : Word) (a : Addr) (v : BitVec w.bits) :
    (memWrite w nx a v s).Keeps Inv :=
  storeBy_keeps h .address w nx a v

theorem gprAddr_keeps {s : State} (h : Inv s) (w : Width) (n : RegNum) : (gprAddr w n s).Keeps Inv := by
  unfold gprAddr
  split
  · trivial
  · split
    · exact h
    · trivial

theorem shortAddr_keeps {s : State} (h : Inv s) (w : Width) (r : ShortReg) : (shortAddr w r s).Keeps Inv := by
  unfold shortAddr
  split
  · exact gprAddr_keeps h _ _
  · exact h

theorem bitWordAddr_keeps {s : State} (h : Inv s) (q : BitOff) : (bitWordAddr q s).Keeps Inv := by
  unfold bitWordAddr
  split
  · exact h
  · split
    · exact h
    · exact gprAddr_keeps h _ _

theorem dataAddr_keeps {s : State} (h : Inv s) (a : Word) : (dataAddr a s).Keeps Inv := by
  unfold dataAddr
  split
  · split
    · trivial
    · exact h
  · exact h
  · exact h

theorem readGpr_keeps {s : State} (h : Inv s) (w : Width) (n : RegNum) : (readGpr w n s).Keeps Inv :=
  (gprAddr_keeps h w n).bind fun a _ hs => memRead_keeps hs w a

theorem writeGpr_keeps {s : State} (h : Inv s) (w : Width) (nx : Word) (n : RegNum) (v : BitVec w.bits) :
    (writeGpr w nx n v s).Keeps Inv :=
  (gprAddr_keeps h w n).bind fun a _ hs => storeBy_keeps hs .gpr w nx a v

theorem storeLoc_keeps {s : State} (h : Inv s) (w : Width) (l : Loc) (nx : Word) (d : Addr) (v : BitVec w.bits) :
    (storeLoc w l nx d v s).Keeps Inv :=
  Res.Keeps.ite (fun _ => memWrite_keeps h .word nx d _) fun _ => storeBy_keeps h _ w nx d v

theorem locAddr_keeps {s : State} (h : Inv s) (w : Width) (l : Loc) : (locAddr w l s).Keeps Inv := by
  cases l with
  | gpr n => exact gprAddr_keeps h w n
  | short r => exact shortAddr_keeps h w r
  | long a => exact dataAddr_keeps h a
  | ind k => exact (readGpr_keeps h .word k).bind fun p _ hs => dataAddr_keeps hs p
  | disp k d => exact (readGpr_keeps h .word k).bind fun p _ hs => dataAddr_keeps hs (p + d)

theorem readLoc_keeps {s : State} (h : Inv s) (w : Width) (l : Loc) : (readLoc w l s).Keeps Inv :=
  (locAddr_keeps h w l).bind fun a _ hs => memRead_keeps hs w a

theorem readSrc_keeps {s : State} (h : Inv s) (w : Width) (o : Src) : (readSrc w o s).Keeps Inv := by
  cases o with
  | imm d => exact h
  | loc l => exact readLoc_keeps h w l

theorem readPostInc_keeps {s : State} (h : Inv s) (w : Width) (k : RegNum) : (readPostInc w k s).Keeps Inv :=
  (readGpr_keeps h .word k).bind fun p _ h2 => (dataAddr_keeps h2 p).bind fun a _ h3 =>
    (memRead_keeps h3 w a).bind fun _ _ h4 => h4

theorem readBit_keeps {s : State} (h : Inv s) (qq : BitOff) (q : BitPos) : (readBit qq q s).Keeps Inv :=
  (bitWordAddr_keeps h qq).bind fun a _ h1 => (memRead_keeps h1 .word a).bind fun _ _ h2 => h2

theorem checkOverflow_keeps {s : State} (h : Inv s) : (checkOverflow s).Keeps Inv := by
  unfold checkOverflow
  split
  · split
    · exact { h with tfr := tfr_or_reserved h.tfr (stkofBit_reserved _) }
    · trivial
  · exact h

theorem checkUnderflow_keeps {s : State} (h : Inv s) : (checkUnderflow s).Keeps Inv := by
  unfold checkUnderflow
  split
  · split
    · exact { h with tfr := tfr_or_reserved h.tfr (stkufBit_reserved _) }
    · trivial
  · exact h

theorem push_keeps {s : State} (h : Inv s) (nx v : Word) : (push nx v s).Keeps Inv := by
  unfold push
  split
  · trivial
  · exact (memWrite_keeps (h.withSp (even_sub_two h.sp)) .word nx _ v).bind fun _ _ h1 => checkOverflow_keeps h1

theorem pop_keeps {s : State} (h : Inv s) : (pop s).Keeps Inv := by
  unfold pop
  split
  · trivial
  · exact (memRead_keeps h .word _).bind fun _ _ h1 =>
      (checkUnderflow_keeps (h1.withSp (even_add_two h1.sp))).bind fun _ _ h2 => h2

theorem entryPush_keeps {s : State} (h : Inv s) (v : Word) : (entryPush v s).Keeps Inv := by
  unfold entryPush
  split
  · trivial
  · exact (storeWord_keeps (h.withSp (even_sub_two h.sp)) _ v).bind fun _ _ h1 => checkOverflow_keeps h1

theorem entryPushCsp_keeps {s : State} (h : Inv s) : (entryPushCsp s).Keeps Inv :=
  Res.Keeps.ite (fun _ => h) fun _ => entryPush_keeps h _

theorem Inv.arrive {s : State} (h : Inv s) (f : Frame) (number : TrapNum) (level : BitVec 4) :
    Inv (arrive f number level s) :=
  { h with psw := withIlvl_reserved h.psw level }

theorem enter_keeps {s : State} (h : Inv s) (f : Frame) (number : TrapNum) (level : BitVec 4) (ret : Word) :
    (enter f number level ret s).Keeps Inv :=
  (entryPush_keeps h _).bind fun _ _ h1 => (entryPushCsp_keeps h1).bind fun _ _ h2 =>
    (entryPush_keeps h2 ret).bind fun _ _ h3 => h3.arrive f number level

/-- The state a class B entry starts from. -/
theorem Inv.endSequence {s : State} (h : Inv s) :
    Inv { s with extCount := 0, extEsfr := false, extOvr := .none, retrapB := false } where
  memory := h.memory
  psw := h.psw
  tfr := h.tfr
  cp := h.cp
  sp := h.sp
  count := Nat.zero_le _
  modes := fun _ => ⟨rfl, rfl⟩
  locked := h.locked

theorem enterB_keeps {s : State} (h : Inv s) (ret : Word) : (enterB ret s).Keeps Inv := by
  unfold enterB
  split
  · exact enter_keeps (h.endSequence) _ _ _ _
  · trivial

theorem Inv.raised {s : State} (h : Inv s) (t : ClassB) :
    Inv { s with tfr := s.tfr ||| classBFlag s.par.traps t } :=
  { h with tfr := tfr_or_reserved h.tfr (classBFlag_reserved _ t) }

theorem raiseB_keeps {s : State} (h : Inv s) (t : ClassB) (ret : Word) : (raiseB t ret s).Keeps Inv :=
  enterB_keeps (h.raised t) ret

theorem enterA_keeps {s : State} (h : Inv s) (k : ClassA) : (enterA k s).Keeps Inv := by
  unfold enterA
  apply enter_keeps
  cases k <;> exact h.congr rfl rfl rfl rfl rfl rfl rfl rfl rfl rfl rfl

theorem enterIrq_keeps {s : State} (h : Inv s) (k : Nat) (q : IrqSource) : (enterIrq k q s).Keeps Inv :=
  enter_keeps (h.putIrq _ _) _ _ _ _

theorem Inv.leaveFrame {s : State} (h : Inv s) : Inv (leaveFrame s) := by
  unfold Machine.leaveFrame
  split <;> exact h.congr rfl rfl rfl rfl rfl rfl rfl rfl rfl rfl rfl

theorem Inv.resetCpu {s : State} (h : Inv s) : Inv (resetCpu s) where
  memory := h.memory
  psw := and_mask_reserved _ _
  tfr := and_mask_reserved _ _
  cp := fixCp_idem _ _
  sp := fixSp_even _
  count := Nat.zero_le _
  modes := fun _ => ⟨rfl, rfl⟩
  locked := fun e => nomatch e

/-- The outcome of an operation that keeps the invariant. -/
theorem outcomeOf_keeps {x : Res Unit} (h : x.Keeps Inv) {t : State} (ht : outcomeOf x = .next t) : Inv t := by
  cases x with
  | ok v s =>
    simp only [outcomeOf, Host.Outcome.next.injEq] at ht
    exact ht ▸ h
  | trap k s => exact absurd ht (by simp [outcomeOf])
  | fault e => exact absurd ht (by simp [outcomeOf])
  | refused r => exact absurd ht (by simp [outcomeOf])

/-- An instruction whose body keeps the invariant keeps it, whether it ends or traps. -/
theorem runInstr_keeps {len : Word} {body : Word → State → Res Word} {s t : State}
    (hb : (body (s.ip + len) s).Keeps Inv) (ht : runInstr len body s = .next t) : Inv t := by
  unfold runInstr at ht
  split at ht
  · next x u he =>
    rw [he] at hb
    simp only [Host.Outcome.next.injEq] at ht
    exact ht ▸ Inv.withIp hb x
  · next k u he =>
    rw [he] at hb
    exact outcomeOf_keeps (raiseB_keeps hb k _) ht
  · exact absurd ht (by simp)
  · exact absurd ht (by simp)

theorem seqInstr_keeps {len : Word} {body : Word → State → Res Unit} {s t : State}
    (hb : (body (s.ip + len) s).Keeps Inv) (ht : seqInstr len body s = .next t) : Inv t :=
  runInstr_keeps (body := fun nx s => (body nx s).bind fun _ s => .ok nx s) (hb.bind fun _ _ h => h) ht

end Sys2Proof.Machine
end

