-- ==== Sys2Proof/Laws/Frames.lean ====
section
/-!
SUPPORT. What each shared operation leaves unchanged: the frame of Safety.lean composes, a read changes nothing where
the map has no device, a store changes what it stores to, a push or a pop its word and SP. One lemma per operation.
-/

namespace Sys2Proof.Machine

/-! The frame composes -/

/-- The parameters alone place the CPU registers. -/
theorem regWord_congr {s t : State} (h : t.par = s.par) (r : CpuReg) : regWord t r = regWord s r := by
  simp [regWord, h]

theorem FrameExcept.refl (l : List (Width × Addr)) (s : State) : FrameExcept l s s where
  bytes _ _ := rfl
  regs _ _ _ := rfl
  pswRest _ := rfl
  irqRegs _ := rfl
  sequence := ⟨rfl, rfl, rfl⟩
  modes := ⟨rfl, rfl, rfl, rfl⟩
  requests := ⟨rfl, rfl⟩
  limits _ := ⟨rfl, rfl⟩
  outside := ⟨rfl, rfl, rfl, rfl⟩

theorem FrameExcept.trans {l : List (Width × Addr)} {s t u : State} (h : FrameExcept l s t) (k : FrameExcept l t u) :
    FrameExcept l s u where
  bytes a ha := (k.bytes a ha).trans (h.bytes a ha)
  regs r hr ha := (k.regs r hr (by rw [regWord_congr h.outside.1]; exact ha)).trans (h.regs r hr ha)
  pswRest ha := by
    have hk := k.pswRest (by rw [regWord_congr h.outside.1]; exact ha)
    rw [h.outside.1] at hk
    exact hk.trans (h.pswRest ha)
  irqRegs ha := by
    have ht := h.irqRegs ha
    exact (k.irqRegs (by rw [ht]; exact ha)).trans ht
  sequence := ⟨k.sequence.1.trans h.sequence.1, k.sequence.2.1.trans h.sequence.2.1,
    k.sequence.2.2.trans h.sequence.2.2⟩
  modes := ⟨k.modes.1.trans h.modes.1, k.modes.2.1.trans h.modes.2.1, k.modes.2.2.1.trans h.modes.2.2.1,
    k.modes.2.2.2.trans h.modes.2.2.2⟩
  requests := ⟨k.requests.1.trans h.requests.1, k.requests.2.trans h.requests.2⟩
  limits ha :=
    have hk := k.limits (by rw [regWord_congr h.outside.1]; exact ha)
    ⟨hk.1.trans (h.limits ha).1, hk.2.trans (h.limits ha).2⟩
  outside := ⟨k.outside.1.trans h.outside.1, k.outside.2.1.trans h.outside.2.1,
    k.outside.2.2.1.trans h.outside.2.2.1, k.outside.2.2.2.trans h.outside.2.2.2⟩

theorem FrameExcept.mono {l m : List (Width × Addr)} {s t : State} (h : FrameExcept l s t) (hs : l ⊆ m) :
    FrameExcept m s t where
  bytes a ha := h.bytes a fun p hp => ha p (hs hp)
  regs r hr ha := h.regs r hr fun p hp => ha p (hs hp)
  pswRest ha := h.pswRest fun p hp => ha p (hs hp)
  irqRegs ha := h.irqRegs fun q hq p hp => ha q hq p (hs hp)
  sequence := h.sequence
  modes := h.modes
  requests := h.requests
  limits ha := h.limits fun p hp => ha p (hs hp)
  outside := h.outside

theorem atReg_congr {s t : State} (h : t.par = s.par) (r : CpuReg) : atReg t r = atReg s r := by
  simp [atReg, h]

/-- The frame of an instruction that affects no flag. -/
structure FlaglessFrame (l : List (Width × Addr)) (s t : State) : Prop where
  frame : FrameExcept l s t
  psw : (∀ p ∈ l, regWord s .psw ≠ evenAddr p.2) → t.psw = s.psw

theorem FlaglessFrame.refl (l : List (Width × Addr)) (s : State) : FlaglessFrame l s s := ⟨.refl l s, fun _ => rfl⟩

theorem FlaglessFrame.trans {l : List (Width × Addr)} {s t u : State} (h : FlaglessFrame l s t)
    (k : FlaglessFrame l t u) : FlaglessFrame l s u :=
  ⟨h.frame.trans k.frame, fun ha => (k.psw (by rw [regWord_congr h.frame.outside.1]; exact ha)).trans (h.psw ha)⟩

theorem FlaglessFrame.mono {l m : List (Width × Addr)} {s t : State} (h : FlaglessFrame l s t) (hs : l ⊆ m) :
    FlaglessFrame m s t :=
  ⟨h.frame.mono hs, fun ha => h.psw fun p hp => ha p (hs hp)⟩

/-! Updates -/

/-- A bit named in the mask replaced leaves the bits outside the mask. -/
theorem putBit_rest {m : Word} {k : Nat} (hk : bitAt k &&& ~~~m = 0#16) (w : Word) (b : Bool) :
    putBit w k b &&& ~~~m = w &&& ~~~m := by
  unfold putBit
  have h1 : ~~~(bitAt k) &&& ~~~m = ~~~m := by
    ext i hi
    have h := congrArg (fun x : Word => x[i]) hk
    simp only [BitVec.getElem_and, BitVec.getElem_not, BitVec.getElem_zero] at h ⊢
    revert h
    cases (bitAt k)[i] <;> cases m[i] <;> simp
  have h2 : (if b then bitAt k else 0#16) &&& ~~~m = 0#16 := by
    cases b
    · simp
    · exact hk
  rw [BitVec.and_comm, BitVec.and_or_distrib_left, BitVec.and_comm, BitVec.and_assoc, h1, BitVec.and_comm (~~~m), h2]
  simp

/-- Writing the flags leaves the other bits of the PSW. -/
theorem putFlags_rest (l : PswLayout) (psw : Word) (f : Flags) :
    putFlags l psw f &&& ~~~(flagMask l) = psw &&& ~~~(flagMask l) := by
  unfold putFlags flagMask
  rw [putBit_rest (last_reserved _ _), putBit_rest (reserved_mono (last_reserved _ _)),
    putBit_rest (reserved_mono (reserved_mono (last_reserved _ _))),
    putBit_rest (reserved_mono (reserved_mono (reserved_mono (last_reserved _ _)))),
    putBit_rest (reserved_mono (reserved_mono (reserved_mono (reserved_mono (self_reserved _)))))]

theorem setFlags_frame (s : State) (f : Flags) : FrameExcept [] s (setFlags f s) where
  bytes _ _ := rfl
  regs r hr _ := by cases r <;> first | rfl | exact absurd rfl hr
  pswRest _ := putFlags_rest _ _ _
  irqRegs _ := rfl
  sequence := ⟨rfl, rfl, rfl⟩
  modes := ⟨rfl, rfl, rfl, rfl⟩
  requests := ⟨rfl, rfl⟩
  limits _ := ⟨rfl, rfl⟩
  outside := ⟨rfl, rfl, rfl, rfl⟩

theorem setFlagsFor_frame (s : State) (d : Addr) (f : Flags) : FrameExcept [] s (setFlagsFor d f s) := by
  unfold setFlagsFor
  split
  · exact .refl _ _
  · exact setFlags_frame s f

theorem setByte_frame (s : State) (a : Addr) (v : Byte) : FlaglessFrame [(.byte, a)] s (setByte s a v) where
  frame :=
    { bytes := fun b hb => by
        have : b ≠ a := fun e => hb (.byte, a) (by simp) (Or.inl e)
        simp [byteAt_setByte, this]
      regs := fun r _ _ => by cases r <;> rfl
      pswRest := fun _ => rfl
      irqRegs := fun _ => rfl
      sequence := ⟨rfl, rfl, rfl⟩
      modes := ⟨rfl, rfl, rfl, rfl⟩
      requests := ⟨rfl, rfl⟩
      limits := fun _ => ⟨rfl, rfl⟩
      outside := ⟨rfl, rfl, rfl, rfl⟩ }
  psw _ := rfl

theorem setWord_frame (s : State) (a : Addr) (v : Word) : FlaglessFrame [(.word, a)] s (setWord s a v) where
  frame :=
    { bytes := fun b hb => by
        have h0 : b ≠ a := fun e => hb (.word, a) (by simp) (Or.inl e)
        have h1 : b ≠ a + 1 := fun e => hb (.word, a) (by simp) (Or.inr ⟨rfl, e⟩)
        rw [byteAt_setWord, if_neg h1, if_neg h0]
      regs := fun r _ _ => by cases r <;> rfl
      pswRest := fun _ => rfl
      irqRegs := fun _ => rfl
      sequence := ⟨rfl, rfl, rfl⟩
      modes := ⟨rfl, rfl, rfl, rfl⟩
      requests := ⟨rfl, rfl⟩
      limits := fun _ => ⟨rfl, rfl⟩
      outside := ⟨rfl, rfl, rfl, rfl⟩ }
  psw _ := rfl

theorem putCpuReg_byteAt (s : State) (r : CpuReg) (v : Word) (b : Addr) : byteAt (putCpuReg r v s) b = byteAt s b := by
  cases r <;> rfl

/-- A CPU register written leaves every other. -/
theorem readCpuReg_putCpuReg_other (s : State) {r q : CpuReg} (v : Word) (h : q ≠ r) :
    readCpuReg q (putCpuReg r v s) = readCpuReg q s := by
  cases r <;> cases q <;> first | rfl | exact absurd rfl h

theorem putCpuReg_frame (s : State) (r : CpuReg) (v : Word) (w : Width) (a : Addr)
    (ha : regWord s r = evenAddr a) :
    FlaglessFrame [(w, a)] s (putCpuReg r v s) where
  frame :=
    { bytes := fun b _ => putCpuReg_byteAt s r v b
      regs := fun q _ hq => by
        refine readCpuReg_putCpuReg_other s v fun e => hq (w, a) (by simp) (by rw [e]; exact ha)
      pswRest := fun hp => by
        cases r <;> first | rfl | exact absurd ha (hp (w, a) (by simp))
      irqRegs := fun _ => by cases r <;> rfl
      sequence := by cases r <;> exact ⟨rfl, rfl, rfl⟩
      modes := by cases r <;> exact ⟨rfl, rfl, rfl, rfl⟩
      requests := by cases r <;> exact ⟨rfl, rfl⟩
      limits := fun _ => by cases r <;> exact ⟨rfl, rfl⟩
      outside := by cases r <;> exact ⟨rfl, rfl, rfl, rfl⟩ }
  psw hp := by cases r <;> first | rfl | exact absurd ha (hp (w, a) (by simp))

theorem cpuRegAt_addr {m : SfrAddresses} {a : Addr} {r : CpuReg} (h : cpuRegAt m a = some r) : sfrAddr m r = a := by
  simpa using List.find?_some h

theorem irqIndexAt_addr {irqs : List IrqSource} {a : Addr} {k : Nat} (h : irqIndexAt irqs a = some k) :
    ∃ q ∈ irqs, q.icAddr = a := by
  unfold irqIndexAt at h
  obtain ⟨hk, hq, _⟩ := List.findIdx?_eq_some_iff_getElem.mp h
  exact ⟨irqs[k], List.getElem_mem hk, by simpa using hq⟩

theorem evenAddr_idem (a : Addr) : evenAddr (evenAddr a) = evenAddr a := by
  simp [evenAddr, BitVec.and_assoc]

theorem place_reg {s : State} {a : Addr} {r : CpuReg} (h : place s a = .reg r) :
    regWord s r = evenAddr a := by
  unfold place at h
  split at h
  · next q hq =>
    cases h
    rw [regWord, cpuRegAt_addr hq, evenAddr_idem]
  · split at h
    · exact absurd h (by simp)
    · split at h <;> first | exact absurd h (by simp) | (split at h <;> exact absurd h (by simp))

theorem place_irq {s : State} {a : Addr} {k : Nat} (h : place s a = .irq k) : ∃ q ∈ s.irqs, q.icAddr = evenAddr a := by
  unfold place at h
  split at h
  · exact absurd h (by simp)
  · split at h
    · next j hj => exact irqIndexAt_addr hj
    · split at h <;> first | exact absurd h (by simp) | (split at h <;> exact absurd h (by simp))

theorem regionKind_device {m : List Region} {a : Nat} (h : regionKind m a = .device) : ∃ r ∈ m, r.kind = .device := by
  induction m with
  | nil => exact absurd h (by simp [regionKind])
  | cons r rest ih =>
    unfold regionKind at h
    split at h
    · exact ⟨r, by simp, h⟩
    · obtain ⟨q, hq, hk⟩ := ih h
      exact ⟨q, by simp [hq], hk⟩

/-- A map without device windows holds no device. -/
theorem NoDevices.place {s : State} (h : NoDevices s) (a : Addr) : Machine.place s a ≠ .device := by
  intro hp
  unfold Machine.place at hp
  split at hp
  · exact absurd hp (by simp)
  · split at hp
    · exact absurd hp (by simp)
    · split at hp
      · exact absurd hp (by simp)
      · exact absurd hp (by simp)
      · next hk =>
        obtain ⟨r, hr, hd⟩ := regionKind_device hk
        exact h r hr hd
      · split at hp <;> exact absurd hp (by simp)

theorem NoDevices.of_par {s t : State} (h : NoDevices s) (e : t.par = s.par) : NoDevices t := by
  intro r hr
  rw [e] at hr
  exact h r hr

theorem putIrq_frame (s : State) (k : Nat) (v : Byte) (w : Width) (a : Addr) (h : ∃ q ∈ s.irqs, q.icAddr = evenAddr a) :
    FlaglessFrame [(w, a)] s (putIrq s k v) where
  frame :=
    { bytes := fun _ _ => rfl
      regs := fun r _ _ => by cases r <;> rfl
      pswRest := fun _ => rfl
      irqRegs := fun hq => by
        obtain ⟨q, hm, he⟩ := h
        exact absurd he (hq q hm (w, a) (by simp))
      sequence := ⟨rfl, rfl, rfl⟩
      modes := ⟨rfl, rfl, rfl, rfl⟩
      requests := ⟨rfl, rfl⟩
      limits := fun _ => ⟨rfl, rfl⟩
      outside := ⟨rfl, rfl, rfl, rfl⟩ }
  psw _ := rfl

/-! Operations -/

/-- Where an operation answers, its states are related; whether it answers or raises a class B trap, no service routine
is entered or left. -/
def Res.Rel {α : Type} (R : State → State → Prop) (s : State) (x : Res α) : Prop :=
  match x with
  | .ok _ t => R s t ∧ t.frames = s.frames
  | .trap _ t => t.frames = s.frames
  | .fault _ => True
  | .refused _ => True

theorem Res.Rel.bind {α β : Type} {R : State → State → Prop} (tr : ∀ {a b c}, R a b → R b c → R a c) {s : State}
    {x : Res α} {f : α → State → Res β} (hx : x.Rel R s) (hf : ∀ v t, x = .ok v t → (f v t).Rel R t) :
    (x.bind f).Rel R s := by
  cases x with
  | ok v t =>
    have h := hf v t rfl
    obtain ⟨h1, h2⟩ := hx
    simp only [bind_ok]
    cases hft : f v t with
    | ok u y =>
      rw [hft] at h
      exact ⟨tr h1 h.1, h.2.trans h2⟩
    | trap k y =>
      rw [hft] at h
      exact Eq.trans h h2
    | fault e => trivial
    | refused e => trivial
  | trap k t => exact hx
  | fault e => trivial
  | refused e => trivial

theorem Res.Rel.seq {α β : Type} {l : List (Width × Addr)} {s : State} {x : Res α} {f : α → State → Res β}
    (hx : x.Rel (FrameExcept l) s) (hf : ∀ v t, x = .ok v t → (f v t).Rel (FrameExcept l) t) :
    (x.bind f).Rel (FrameExcept l) s := Res.Rel.bind (R := FrameExcept l) FrameExcept.trans hx hf

theorem Res.Rel.seqFlagless {α β : Type} {l : List (Width × Addr)} {s : State} {x : Res α} {f : α → State → Res β}
    (hx : x.Rel (FlaglessFrame l) s) (hf : ∀ v t, x = .ok v t → (f v t).Rel (FlaglessFrame l) t) :
    (x.bind f).Rel (FlaglessFrame l) s := Res.Rel.bind (R := FlaglessFrame l) FlaglessFrame.trans hx hf

theorem Res.Rel.imp {α : Type} {R Q : State → State → Prop} {s : State} {x : Res α} (hx : x.Rel R s)
    (h : ∀ t, R s t → Q s t) : x.Rel Q s := by
  cases x with
  | ok v t => exact ⟨h t hx.1, hx.2⟩
  | trap k t => exact hx
  | fault e => trivial
  | refused e => trivial

/-- A read changes nothing where the map has no device. -/
theorem memRead_pure {s : State} (h : NoDevices s) (w : Width) (a : Addr) : (memRead w a s).Rel (fun s t => t = s) s := by
  have hd := h.place a
  cases w with
  | byte =>
    simp only [memRead, loadByte]
    split
    · trivial
    · split <;> first | exact ⟨rfl, rfl⟩ | trivial
  | word =>
    simp only [memRead, loadWord]
    split
    · exact rfl
    · split
      · trivial
      · split <;> first | exact ⟨rfl, rfl⟩ | trivial

/-- Where one operation after another answers, the first answered. -/
theorem bind_eq_ok {α β : Type} {x : Res α} {f : α → State → Res β} {v : β} {t : State} (h : x.bind f = .ok v t) :
    ∃ y u, x = .ok y u ∧ f y u = .ok v t := by
  cases x with
  | ok y u => exact ⟨y, u, rfl, h⟩
  | trap k u => exact absurd h (by simp)
  | fault e => exact absurd h (by simp)
  | refused e => exact absurd h (by simp)

/-- A read first, then the rest on the same state. -/
theorem Res.Rel.read {α β : Type} {R : State → State → Prop} {s : State} {x : Res α} {f : α → State → Res β}
    (hx : x.Rel (fun s t => t = s) s) (hf : ∀ v, x = .ok v s → (f v s).Rel R s) : (x.bind f).Rel R s := by
  cases x with
  | ok v t =>
    obtain ⟨rfl, -⟩ := hx
    exact hf v rfl
  | trap k t => exact hx
  | fault e => trivial
  | refused e => trivial

theorem gprAddr_pure (s : State) (w : Width) (n : RegNum) : (gprAddr w n s).Rel (fun s t => t = s) s := by
  unfold gprAddr
  split
  · trivial
  · split
    · exact ⟨rfl, rfl⟩
    · trivial

theorem shortAddr_pure (s : State) (w : Width) (r : ShortReg) : (shortAddr w r s).Rel (fun s t => t = s) s := by
  unfold shortAddr
  split
  · exact gprAddr_pure s _ _
  · exact ⟨rfl, rfl⟩

theorem bitWordAddr_pure (s : State) (q : BitOff) : (bitWordAddr q s).Rel (fun s t => t = s) s := by
  unfold bitWordAddr
  split
  · exact ⟨rfl, rfl⟩
  · split
    · exact ⟨rfl, rfl⟩
    · exact gprAddr_pure s _ _

theorem dataAddr_pure (s : State) (a : Word) : (dataAddr a s).Rel (fun s t => t = s) s := by
  unfold dataAddr
  split
  · split
    · trivial
    · exact ⟨rfl, rfl⟩
  · exact ⟨rfl, rfl⟩
  · exact ⟨rfl, rfl⟩

theorem readGpr_pure {s : State} (h : NoDevices s) (w : Width) (n : RegNum) :
    (readGpr w n s).Rel (fun s t => t = s) s :=
  (gprAddr_pure s w n).read fun a _ => memRead_pure h w a

theorem locAddr_pure {s : State} (h : NoDevices s) (w : Width) (l : Loc) : (locAddr w l s).Rel (fun s t => t = s) s := by
  cases l with
  | gpr n => exact gprAddr_pure s w n
  | short r => exact shortAddr_pure s w r
  | long a => exact dataAddr_pure s a
  | ind k => exact (readGpr_pure h .word k).read fun p _ => dataAddr_pure s p
  | disp k d => exact (readGpr_pure h .word k).read fun p _ => dataAddr_pure s (p + d)

theorem readLoc_pure {s : State} (h : NoDevices s) (w : Width) (l : Loc) : (readLoc w l s).Rel (fun s t => t = s) s :=
  (locAddr_pure h w l).read fun a _ => memRead_pure h w a

theorem readSrc_pure {s : State} (h : NoDevices s) (w : Width) (o : Src) : (readSrc w o s).Rel (fun s t => t = s) s := by
  cases o with
  | imm d => exact ⟨rfl, rfl⟩
  | loc l => exact readLoc_pure h w l

theorem readBit_pure {s : State} (h : NoDevices s) (qq : BitOff) (q : BitPos) :
    (readBit qq q s).Rel (fun s t => t = s) s :=
  (bitWordAddr_pure s qq).read fun a _ => (memRead_pure h .word a).read fun _ _ => ⟨rfl, rfl⟩

theorem readPostInc_pure {s : State} (h : NoDevices s) (w : Width) (k : RegNum) :
    (readPostInc w k s).Rel (fun s t => t = s) s :=
  (readGpr_pure h .word k).read fun p _ =>
    (dataAddr_pure s p).read fun a _ => (memRead_pure h w a).read fun _ _ => ⟨rfl, rfl⟩

theorem writeCpuReg_frame (s : State) (r : CpuReg) (v : Word) (w : Width) (a : Addr)
    (ha : regWord s r = evenAddr a) :
    (writeCpuReg r v s).Rel (FlaglessFrame [(w, a)]) s := by
  unfold writeCpuReg
  split
  · trivial
  · exact ⟨putCpuReg_frame s r v w a ha, by cases r <;> rfl⟩

theorem storeWord_frame {s : State} (h : NoDevices s) (a : Addr) (v : Word) :
    (storeWord a v s).Rel (FlaglessFrame [(.word, a)]) s := by
  have hd := h.place a
  unfold storeWord
  split
  · trivial
  · split
    · exact writeCpuReg_frame s _ v .word a (place_reg ‹_›)
    · exact ⟨putIrq_frame s _ _ .word a (place_irq ‹_›), rfl⟩
    · exact ⟨setWord_frame s a v, rfl⟩
    · trivial
    · exact absurd ‹_› hd
    · trivial
    · trivial

theorem storeByte_frame {s : State} (h : NoDevices s) (route : ByteRoute) (a : Addr) (v : Byte) :
    (storeByte route a v s).Rel (FlaglessFrame [(.byte, a)]) s := by
  have hd := h.place a
  unfold storeByte
  split
  · trivial
  · split
    · exact writeCpuReg_frame s _ _ .byte a (place_reg ‹_›)
    · split
      · exact ⟨.refl _ _, rfl⟩
      · exact ⟨putIrq_frame s _ _ .byte a (place_irq ‹_›), rfl⟩
    · exact ⟨setByte_frame s a v, rfl⟩
    · trivial
    · exact absurd ‹_› hd
    · trivial
    · trivial

/-- A store changes what it stores to. -/
theorem storeBy_frame {s : State} (h : NoDevices s) (route : ByteRoute) (w : Width) (nx : Word) (a : Addr)
    (v : BitVec w.bits) : (storeBy route w nx a v s).Rel (FlaglessFrame [(w, a)]) s := by
  cases w with
  | byte =>
    simp only [storeBy]
    split
    · trivial
    · exact storeByte_frame h route a v
  | word =>
    simp only [storeBy]
    split
    · exact rfl
    · split
      · trivial
      · exact storeWord_frame h a v

theorem memWrite_frame {s : State} (h : NoDevices s) (w : Width) (nx : Word) (a : Addr) (v : BitVec w.bits) :
    (memWrite w nx a v s).Rel (FlaglessFrame [(w, a)]) s :=
  storeBy_frame h .address w nx a v

/-- A store to an operand changes what it stores to. -/
theorem storeLoc_frame {s : State} (h : NoDevices s) (w : Width) (l : Loc) (nx : Word) (d : Addr) (v : BitVec w.bits) :
    (storeLoc w l nx d v s).Rel (FlaglessFrame [(storeWidth w l, d)]) s := by
  unfold storeLoc storeWidth
  split
  · exact memWrite_frame h .word nx d _
  · exact storeBy_frame h _ w nx d v

/-- A register at its own address. -/
theorem sp_frame (s : State) (v : Word) : FlaglessFrame [atReg s .sp] s { s with sp := v } where
  frame :=
    { bytes := fun _ _ => rfl
      regs := fun r _ hr => by
        cases r <;> first | rfl | exact absurd rfl (hr (atReg s .sp) (by simp))
      pswRest := fun _ => rfl
      irqRegs := fun _ => rfl
      sequence := ⟨rfl, rfl, rfl⟩
      modes := ⟨rfl, rfl, rfl, rfl⟩
      requests := ⟨rfl, rfl⟩
      limits := fun _ => ⟨rfl, rfl⟩
      outside := ⟨rfl, rfl, rfl, rfl⟩ }
  psw _ := rfl

theorem csp_frame (s : State) (v : BitVec 8) : FlaglessFrame [atReg s .csp] s { s with csp := v } where
  frame :=
    { bytes := fun _ _ => rfl
      regs := fun r _ hr => by
        cases r <;> first | rfl | exact absurd rfl (hr (atReg s .csp) (by simp))
      pswRest := fun _ => rfl
      irqRegs := fun _ => rfl
      sequence := ⟨rfl, rfl, rfl⟩
      modes := ⟨rfl, rfl, rfl, rfl⟩
      requests := ⟨rfl, rfl⟩
      limits := fun _ => ⟨rfl, rfl⟩
      outside := ⟨rfl, rfl, rfl, rfl⟩ }
  psw _ := rfl

theorem md_frame (s : State) (x y : Word) (k : Nat) :
    FlaglessFrame [atReg s .mdl, atReg s .mdh] s { s with mdl := x, mdh := y, draws := k } where
  frame :=
    { bytes := fun _ _ => rfl
      regs := fun r _ hr => by
        cases r <;> first
          | rfl
          | exact absurd rfl (hr (atReg s .mdl) (by simp))
          | exact absurd rfl (hr (atReg s .mdh) (by simp))
      pswRest := fun _ => rfl
      irqRegs := fun _ => rfl
      sequence := ⟨rfl, rfl, rfl⟩
      modes := ⟨rfl, rfl, rfl, rfl⟩
      requests := ⟨rfl, rfl⟩
      limits := fun _ => ⟨rfl, rfl⟩
      outside := ⟨rfl, rfl, rfl, rfl⟩ }
  psw _ := rfl

/-- The next IP is outside every frame. -/
theorem ip_frame (l : List (Width × Addr)) (s : State) (x : Word) : FlaglessFrame l s { s with ip := x } where
  frame :=
    { bytes := fun _ _ => rfl
      regs := fun r _ _ => by cases r <;> rfl
      pswRest := fun _ => rfl
      irqRegs := fun _ => rfl
      sequence := ⟨rfl, rfl, rfl⟩
      modes := ⟨rfl, rfl, rfl, rfl⟩
      requests := ⟨rfl, rfl⟩
      limits := fun _ => ⟨rfl, rfl⟩
      outside := ⟨rfl, rfl, rfl, rfl⟩ }
  psw _ := rfl

theorem limit_frame (s : State) (k : Word) (x y : Bool) :
    FlaglessFrame [atReg s .tfr] s { s with tfr := k, pendStkof := x, pendStkuf := y } where
  frame :=
    { bytes := fun _ _ => rfl
      regs := fun r _ hr => by
        cases r <;> first | rfl | exact absurd rfl (hr (atReg s .tfr) (by simp))
      pswRest := fun _ => rfl
      irqRegs := fun _ => rfl
      sequence := ⟨rfl, rfl, rfl⟩
      modes := ⟨rfl, rfl, rfl, rfl⟩
      requests := ⟨rfl, rfl⟩
      limits := fun hr => absurd rfl (hr (atReg s .tfr) (by simp))
      outside := ⟨rfl, rfl, rfl, rfl⟩ }
  psw _ := rfl

theorem checkOverflow_frame (s : State) : (checkOverflow s).Rel (FlaglessFrame (stackRegs s)) s := by
  unfold checkOverflow
  split
  · split
    · next hl => exact ⟨(limit_frame s _ _ s.pendStkuf).mono (by simp [stackRegs, hl]), rfl⟩
    · trivial
  · exact ⟨.refl _ _, rfl⟩

theorem checkUnderflow_frame (s : State) : (checkUnderflow s).Rel (FlaglessFrame (stackRegs s)) s := by
  unfold checkUnderflow
  split
  · split
    · next hl => exact ⟨(limit_frame s _ s.pendStkof _).mono (by simp [stackRegs, hl]), rfl⟩
    · trivial
  · exact ⟨.refl _ _, rfl⟩

theorem atSp_mem (s : State) : atReg s .sp ∈ stackRegs s := by
  unfold stackRegs
  split <;> simp

theorem stackRegs_congr {s t : State} (h : t.par = s.par) : stackRegs t = stackRegs s := by
  simp [stackRegs, atReg, h]

/-- A word stored, then the check for overflow. -/
theorem pushed_frame {s : State} (h : NoDevices s) (nx v : Word) (a : Addr) :
    ((memWrite .word nx a v s).bind fun _ s => checkOverflow s).Rel (FlaglessFrame ((.word, a) :: stackRegs s)) s := by
  have hw := memWrite_frame h .word nx a v
  refine Res.Rel.seqFlagless
    (hw.imp fun t ht => ht.mono (by simp)) fun _ t ht => ?_
  rw [ht] at hw
  refine (checkOverflow_frame t).imp fun u hu => hu.mono ?_
  rw [stackRegs_congr hw.1.frame.outside.1]
  simp

/-- A push changes SP, the word it pushes, and TFR where the stack limits are on. -/
theorem push_frame {s : State} (h : NoDevices s) (nx v : Word) :
    (push nx v s).Rel (FlaglessFrame (pushSlot s 1#16 :: stackRegs s)) s := by
  unfold push
  split
  · trivial
  · have hsp : FlaglessFrame (pushSlot s 1#16 :: stackRegs s) s { s with sp := s.sp - 2#16 } :=
      (sp_frame s _).mono (by simp [atSp_mem])
    have hn : NoDevices { s with sp := s.sp - 2#16 } := h
    have hb := pushed_frame hn nx v (near (s.sp - 2#16))
    exact Res.Rel.seqFlagless
      (x := Res.ok () { s with sp := s.sp - 2#16 }) ⟨hsp, rfl⟩ (f := fun _ u =>
        (memWrite .word nx (near (s.sp - 2#16)) v u).bind fun _ s => checkOverflow s) fun _ t ht => by
        cases ht
        exact hb

/-- A pop changes SP, and TFR where the stack limits are on. -/
theorem pop_frame {s : State} (h : NoDevices s) : (pop s).Rel (FlaglessFrame (stackRegs s)) s := by
  unfold pop
  split
  · trivial
  · have hr := memRead_pure h .word (near s.sp)
    refine Res.Rel.seqFlagless
      (hr.imp fun t ht => by rw [ht]; exact .refl _ _) fun v t ht => ?_
    rw [ht] at hr
    obtain ⟨rfl, -⟩ := hr
    have hsp : FlaglessFrame (stackRegs t) t { t with sp := t.sp + 2#16 } :=
      (sp_frame t _).mono (by simp [atSp_mem])
    have hc := checkUnderflow_frame { t with sp := t.sp + 2#16 }
    exact Res.Rel.seqFlagless
      (x := Res.ok () { t with sp := t.sp + 2#16 }) ⟨hsp, rfl⟩ (f := fun _ u =>
        (checkUnderflow { t with sp := t.sp + 2#16 }).bind fun _ s => Res.ok v s) fun _ u hu => by
        cases hu
        exact Res.Rel.seqFlagless
          (hc.imp fun _ k => k) fun _ u _ => ⟨.refl _ _, rfl⟩

/-! Instructions -/

/-- A list of unfinished service routines that an operation leaves as it is. -/
theorem storeWord_frames (a : Addr) (v : Word) (s : State) : (storeWord a v s).Keeps fun t => t.frames = s.frames := by
  unfold storeWord
  split
  · trivial
  · split
    · unfold writeCpuReg
      split
      · trivial
      · exact putCpuReg_frames ..
    · exact rfl
    · exact rfl
    · trivial
    · exact rfl
    · trivial
    · trivial

theorem entryPush_frames (v : Word) (s : State) : (entryPush v s).Keeps fun t => t.frames = s.frames := by
  unfold entryPush
  split
  · trivial
  · refine (storeWord_frames _ v { s with sp := s.sp - 2#16 }).bind fun _ t ht => ?_
    unfold checkOverflow
    split
    · split
      · exact ht
      · trivial
    · exact ht

/-- An entry adds one service routine. -/
theorem frames_of_enter {f : Frame} {number : TrapNum} {level : BitVec 4} {ret : Word} {s t : State}
    (h : enter f number level ret s = .ok () t) : t.frames = f :: s.frames := by
  unfold enter at h
  obtain ⟨_, s1, h1, h⟩ := bind_eq_ok h
  obtain ⟨_, s2, h2, h⟩ := bind_eq_ok h
  obtain ⟨_, s3, h3, h⟩ := bind_eq_ok h
  have f1 := entryPush_frames s.psw s
  have f3 := entryPush_frames ret s2
  have f2 : (entryPushCsp s1).Keeps fun t => t.frames = s1.frames := by
    unfold entryPushCsp
    split
    · exact rfl
    · exact entryPush_frames ..
  rw [h1] at f1
  rw [h2] at f2
  rw [h3] at f3
  cases h
  exact congrArg (f :: ·) (f3.trans (f2.trans f1))

/-- A class B trap raised adds one service routine. -/
theorem frames_of_raiseB {k : ClassB} {ret : Word} {s t : State} (h : raiseB k ret s = .ok () t) :
    t.frames = .classB :: s.frames := by
  unfold raiseB enterB at h
  split at h
  · have hf := frames_of_enter h
    exact hf
  · exact absurd h (by simp)

/-- An instruction whose body relates its states does so where it enters no service routine. -/
theorem runInstr_rel {R : State → State → Prop} (tr : ∀ {a b c}, R a b → R b c → R a c)
    (hip : ∀ u x, R u { u with ip := x }) {len : Word} {body : Word → State → Res Word} {s t : State}
    (hb : (body (s.ip + len) s).Rel R s) (ht : runInstr len body s = .next t) (hf : t.frames = s.frames) : R s t := by
  unfold runInstr at ht
  split at ht
  · next x u he =>
    rw [he] at hb
    cases ht
    exact tr hb.1 (hip u x)
  · next k u he =>
    rw [he] at hb
    cases hr : raiseB k (stackedIp k s.ip (s.ip + len)) u with
    | ok x y =>
      rw [hr] at ht
      cases ht
      have hl := congrArg List.length (hf.symm.trans ((frames_of_raiseB hr).trans (congrArg _ hb)))
      simp at hl
    | trap k y => rw [hr] at ht; exact absurd ht (by simp [outcomeOf])
    | fault e => rw [hr] at ht; exact absurd ht (by simp [outcomeOf])
    | refused e => rw [hr] at ht; exact absurd ht (by simp [outcomeOf])
  · exact absurd ht (by simp)
  · exact absurd ht (by simp)

theorem seqInstr_rel {R : State → State → Prop} (rf : ∀ u, R u u) (tr : ∀ {a b c}, R a b → R b c → R a c)
    (hip : ∀ u x, R u { u with ip := x }) {len : Word} {body : Word → State → Res Unit} {s t : State}
    (hb : (body (s.ip + len) s).Rel R s) (ht : seqInstr len body s = .next t) (hf : t.frames = s.frames) : R s t := by
  have h : ((body (s.ip + len) s).bind fun _ u => Res.ok (s.ip + len) u).Rel R s := by
    refine Res.Rel.bind (R := R) (fun h k => tr h k) hb fun _ u _ => ?_
    exact ⟨rf u, rfl⟩
  exact runInstr_rel (R := R) (fun h k => tr h k) hip (body := fun nx s => (body nx s).bind fun _ s => .ok nx s) h ht hf

end Sys2Proof.Machine
end

