-- ==== Sys2Proof/Laws/Results.lean ====
section
/-!
SUPPORT. What the body of each instruction answers where its operands can be read and written: one lemma per body, in
the terms of Safety.lean.
-/

namespace Sys2Proof.Machine

theorem alu_of {op : AluOp} {w : Width} {dst : Loc} {src : Src} {nx : Word} {s u : State} {a b : BitVec w.bits}
    {d : Addr} (hb : sourceVal w s src = some b) (hd : operandLoc w s dst = some d) (ha : peek w s d = some a)
    (hu : pokeLoc w dst s nx d (aluResult op s.flags a b) = some u) :
    alu op w dst src nx s = .ok () (setFlagsFor d (aluFlags op s.flags a b) u) := by
  simp [alu, readSrc_of_val hb, locAddr_of_loc hd, memRead_of_peek ha, storeLoc_of_pokeLoc hu]

/-- What reading `[Rw+]` finds. -/
theorem readPostInc_of {w : Width} {k : RegNum} {s : State} {d : Addr} {p : Word} {v : BitVec w.bits}
    (hp : gprVal .word s k = some p) (hd : longLoc s p = some d) (hv : peek w s d = some v) :
    readPostInc w k s = .ok ⟨v, p + widthStep w⟩ s := by
  simp [readPostInc, readGpr_of_val (w := .word) hp, dataAddr_of_loc hd, memRead_of_peek hv]

theorem aluInc_of {op : AluOp} {w : Width} {n k : RegNum} {nx p : Word} {s u v : State} {a b : BitVec w.bits}
    {d q : Addr} (hc : clashes w n k = false) (hp : gprVal .word s k = some p)
    (hl : longLoc s p = some q) (hb : peek w s q = some b) (hd : gprLoc w s n = some d) (ha : peek w s d = some a)
    (hu : pokeLoc w (.gpr n) s nx d (aluResult op s.flags a b) = some u)
    (hv : pokePtr (setFlagsFor d (aluFlags op s.flags a b) u) nx k (p + widthStep w) = some v) :
    aluInc op w n k nx s = .ok () v := by
  simp [aluInc, hc, readPostInc_of hp hl hb, gprAddr_of_loc hd, memRead_of_peek ha, storeLoc_of_pokeLoc hu,
    writeGpr_of_pokePtr hv]

theorem complement_of {w : Width} {n : RegNum} {nx : Word} {s u : State} {a : BitVec w.bits} {d : Addr}
    (hd : gprLoc w s n = some d) (ha : peek w s d = some a) (hu : pokeLoc w (.gpr n) s nx d (~~~a) = some u) :
    complement w n nx s = .ok () (setFlagsFor d (cplFlags a) u) := by
  simp [complement, gprAddr_of_loc hd, memRead_of_peek ha, storeLoc_of_pokeLoc hu]

theorem negate_of {w : Width} {n : RegNum} {nx : Word} {s u : State} {a : BitVec w.bits} {d : Addr}
    (hd : gprLoc w s n = some d) (ha : peek w s d = some a) (hu : pokeLoc w (.gpr n) s nx d (subValue 0 a false) = some u) :
    negate w n nx s = .ok () (setFlagsFor d (subFlags 0 a false true) u) := by
  simp only [negate, gprAddr_of_loc hd, memRead_of_peek ha, storeLoc_of_pokeLoc hu, bind_ok]

theorem multiply_of {signed : Bool} {n m : RegNum} {nx a b : Word} {s : State} (ha : gprVal .word s n = some a)
    (hb : gprVal .word s m = some b) :
    multiply signed n m nx s = .ok () (setFlags (productFlags signed a b)
      { s with
        mdh := (BitVec.ofInt 32 (product signed a b)).extractLsb' 16 16
        mdl := (BitVec.ofInt 32 (product signed a b)).extractLsb' 0 16 }) := by
  simp [multiply, readGpr_of_val (w := .word) ha, readGpr_of_val (w := .word) hb]

theorem divide_of {kind : DivKind} {n : RegNum} {nx d : Word} {s : State} (hd : gprVal .word s n = some d) :
    divide kind n nx s = .ok () (setFlags
      (if divOverflow s.par.sdiv kind s.mdh s.mdl d then overflowFlags s.draws
        else quotientFlags (BitVec.ofInt 16 (quotient s.par.sdiv kind s.mdh s.mdl d)))
      { s with
        mdl := if divOverflow s.par.sdiv kind s.mdh s.mdl d then Config.divQuotient s.draws
          else BitVec.ofInt 16 (quotient s.par.sdiv kind s.mdh s.mdl d)
        mdh := if divOverflow s.par.sdiv kind s.mdh s.mdl d then Config.divRemainder s.draws
          else BitVec.ofInt 16 (remainder s.par.sdiv kind s.mdh s.mdl d)
        draws := if divOverflow s.par.sdiv kind s.mdh s.mdl d then s.draws + 1 else s.draws }) := by
  simp [divide, readGpr_of_val (w := .word) hd]

theorem bitPut_of {v : Bool} {qq : BitOff} {q : BitPos} {nx x : Word} {s u : State} {a : Addr}
    (ha : bitLoc s qq = some a) (hx : peek .word s a = some x) (hu : poke .word s nx a (setBit x q v) = some u) :
    bitPut v qq q nx s = .ok () (setFlagsFor a (bitFlags (x.getLsbD q.toNat)) u) := by
  simp [bitPut, bitWordAddr_of_loc ha, memRead_of_peek (w := .word) hx, memWrite_of_poke (w := .word) hu]

theorem bitMove_of {negated : Bool} {zz qq : BitOff} {z q : BitPos} {nx x y : Word} {s u : State} {a : Addr}
    (hy : bitWordVal s qq = some y) (ha : bitLoc s zz = some a) (hx : peek .word s a = some x)
    (hu : poke .word s nx a (setBit x z (y.getLsbD q.toNat ^^ negated)) = some u) :
    bitMove negated zz z qq q nx s = .ok () (setFlagsFor a (bitFlags (y.getLsbD q.toNat)) u) := by
  simp [bitMove, readBit_of_val q hy, bitWordAddr_of_loc ha, memRead_of_peek (w := .word) hx]
  rw [memWrite_of_poke (w := .word) hu]
  simp

theorem bitLogic_of {op : BitOp} {zz qq : BitOff} {z q : BitPos} {nx x y : Word} {s u : State} {a : Addr}
    (hy : bitWordVal s qq = some y) (ha : bitLoc s zz = some a) (hx : peek .word s a = some x)
    (hu : poke .word s nx a (setBit x z (bitResult op (x.getLsbD z.toNat) (y.getLsbD q.toNat))) = some u) :
    bitLogic op zz z qq q nx s = .ok () (setFlagsFor a (twoBitFlags (x.getLsbD z.toNat) (y.getLsbD q.toNat)) u) := by
  simp [bitLogic, readBit_of_val q hy, bitWordAddr_of_loc ha, memRead_of_peek (w := .word) hx,
    memWrite_of_poke (w := .word) hu]

theorem bitCompare_of {zz qq : BitOff} {z q : BitPos} {nx x y : Word} {s : State} (hy : bitWordVal s qq = some y)
    (hx : bitWordVal s zz = some x) :
    bitCompare zz z qq q nx s = .ok () (setFlags (twoBitFlags (x.getLsbD z.toNat) (y.getLsbD q.toNat)) s) := by
  simp [bitCompare, readBit_of_val q hy, readBit_of_val z hx]

theorem bitField_of {h : Half} {qq : BitOff} {mask d : Byte} {nx x : Word} {s u : State} {a : Addr}
    (ha : bitLoc s qq = some a) (hx : peek .word s a = some x)
    (hu : poke .word s nx a (fieldResult h mask d x) = some u) :
    bitField h qq mask d nx s = .ok () (setFlagsFor a (fieldFlags (fieldResult h mask d x)) u) := by
  simp [bitField, bitWordAddr_of_loc ha, memRead_of_peek (w := .word) hx, memWrite_of_poke (w := .word) hu]

theorem compare_of {w : Width} {dst : Loc} {src : Src} {nx : Word} {s : State} {a b : BitVec w.bits}
    (hb : sourceVal w s src = some b) (ha : sourceVal w s (.loc dst) = some a) :
    compare w dst src nx s = .ok () (setFlags (subFlags a b false true) s) := by
  simp [compare, readSrc_of_val hb, readLoc_of_val ha]

theorem compareInc_of {w : Width} {n k : RegNum} {nx p : Word} {s v : State} {a b : BitVec w.bits} {q : Addr}
    (hc : clashes w n k = false) (hp : gprVal .word s k = some p)
    (hl : longLoc s p = some q) (hb : peek w s q = some b) (ha : gprVal w s n = some a)
    (hv : pokePtr (setFlags (subFlags a b false true) s) nx k (p + widthStep w) = some v) :
    compareInc w n k nx s = .ok () v := by
  simp [compareInc, hc, readPostInc_of hp hl hb, readGpr_of_val ha, writeGpr_of_pokePtr hv]

theorem compareStep_of {step : Word} {n : RegNum} {src : Src} {nx a b : Word} {s u : State} {d : Addr}
    (hb : sourceVal .word s src = some b) (hd : gprLoc .word s n = some d) (ha : peek .word s d = some a)
    (hu : poke .word (setFlagsFor d (subFlags a b false true) s) nx d (a + step) = some u) :
    compareStep step n src nx s = .ok () u := by
  simp [compareStep, readSrc_of_val (w := .word) hb, gprAddr_of_loc (w := .word) hd, memRead_of_peek (w := .word) ha,
    memWrite_of_poke (w := .word) hu]

theorem shiftBy_of {kind : ShiftKind} {n : RegNum} {c : BitVec 4} {nx a : Word} {s u : State} {d : Addr}
    (hd : gprLoc .word s n = some d) (ha : peek .word s d = some a)
    (hu : poke .word s nx d (shiftResult kind a c.toNat) = some u) :
    shiftBy kind n c nx s = .ok () (setFlagsFor d (shiftFlags kind a c.toNat) u) := by
  simp [shiftBy, gprAddr_of_loc (w := .word) hd, memRead_of_peek (w := .word) ha, memWrite_of_poke (w := .word) hu]

theorem shiftReg_of {kind : ShiftKind} {n m : RegNum} {nx a c : Word} {s u : State} {d : Addr}
    (hc : gprVal .word s m = some c) (hd : gprLoc .word s n = some d) (ha : peek .word s d = some a)
    (hu : poke .word s nx d (shiftResult kind a (c.extractLsb' 0 4).toNat) = some u) :
    shiftReg kind n m nx s = .ok () (setFlagsFor d (shiftFlags kind a (c.extractLsb' 0 4).toNat) u) := by
  simp [shiftReg, readGpr_of_val (w := .word) hc, shiftBy_of hd ha hu]

theorem prioritize_of {n m : RegNum} {nx x : Word} {s u : State} {d : Addr} (hx : gprVal .word s m = some x)
    (hd : gprLoc .word s n = some d) (hu : poke .word s nx d (priorCount x) = some u) :
    prioritize n m nx s = .ok () (setFlagsFor d (priorFlags x) u) := by
  simp [prioritize, readGpr_of_val (w := .word) hx, gprAddr_of_loc (w := .word) hd, memWrite_of_poke (w := .word) hu]

theorem move_of {w : Width} {dst : Loc} {src : Src} {nx : Word} {s u : State} {v : BitVec w.bits} {d : Addr}
    (hv : sourceVal w s src = some v) (hd : operandLoc w s dst = some d) (hu : pokeLoc w dst s nx d v = some u) :
    move w dst src nx s = .ok () (setFlagsFor d (moveFlags u.flags v) u) := by
  simp [move, readSrc_of_val hv, locAddr_of_loc hd, storeLoc_of_pokeLoc hu]

theorem moveFromInc_of {w : Width} {n m : RegNum} {nx p : Word} {s u t : State} {v : BitVec w.bits} {d q : Addr}
    (hc : clashes w n m = false) (hp : gprVal .word s m = some p)
    (hl : longLoc s p = some q) (hv : peek w s q = some v) (hd : gprLoc w s n = some d)
    (hu : pokeLoc w (.gpr n) s nx d v = some u)
    (ht : pokePtr (setFlagsFor d (moveFlags u.flags v) u) nx m (p + widthStep w) = some t) :
    moveFromInc w n m nx s = .ok () t := by
  simp [moveFromInc, hc, readPostInc_of hp hl hv, gprAddr_of_loc hd, storeLoc_of_pokeLoc hu, writeGpr_of_pokePtr ht]

theorem moveToDec_of {w : Width} {m n : RegNum} {nx p : Word} {s u t : State} {v : BitVec w.bits} {d : Addr}
    (hc : clashes w n m = false) (hv : gprVal w s n = some v) (hp : gprVal .word s m = some p)
    (hu : pokePtr s nx m (p - widthStep w) = some u)
    (hd : longLoc u (p - widthStep w) = some d) (ht : poke w u nx d v = some t) :
    moveToDec w m n nx s = .ok () (setFlagsFor d (moveFlags t.flags v) t) := by
  simp [moveToDec, hc, readGpr_of_val hv, readGpr_of_val (w := .word) hp, writeGpr_of_pokePtr hu, dataAddr_of_loc hd,
    memWrite_of_poke ht]

theorem moveIncInd_of {w : Width} {n m : RegNum} {nx p : Word} {s u t : State} {v : BitVec w.bits} {d : Addr}
    (hn : n ≠ m) (hv : sourceVal w s (.loc (.ind m)) = some v) (hp : gprVal .word s n = some p)
    (hd : longLoc s p = some d) (hu : poke w s nx d v = some u)
    (ht : pokePtr (setFlagsFor d (moveFlags u.flags v) u) nx n (p + widthStep w) = some t) :
    moveIncInd w n m nx s = .ok () t := by
  simp [moveIncInd, hn, readLoc_of_val hv, readGpr_of_val (w := .word) hp, dataAddr_of_loc hd, memWrite_of_poke hu,
    writeGpr_of_pokePtr ht]

theorem moveIndInc_of {w : Width} {n m : RegNum} {nx p : Word} {s u t : State} {v : BitVec w.bits} {d q : Addr}
    (hn : n ≠ m) (hp : gprVal .word s m = some p) (hl : longLoc s p = some q)
    (hv : peek w s q = some v) (hd : operandLoc w s (.ind n) = some d) (hu : poke w s nx d v = some u)
    (ht : pokePtr (setFlagsFor d (moveFlags u.flags v) u) nx m (p + widthStep w) = some t) :
    moveIndInc w n m nx s = .ok () t := by
  simp [moveIndInc, hn, readPostInc_of hp hl hv, locAddr_of_loc hd, memWrite_of_poke hu, writeGpr_of_pokePtr ht]

theorem moveExtend_of {x : Extend} {dst src : Loc} {nx : Word} {s u : State} {v : Byte} {d : Addr}
    (hv : sourceVal .byte s (.loc src) = some v) (hd : operandLoc .word s dst = some d)
    (hu : poke .word s nx d (extendByte x v) = some u) :
    moveExtend x dst src nx s = .ok () (setFlagsFor d (extendFlags x u.flags v) u) := by
  simp [moveExtend, readLoc_of_val (w := .byte) hv, locAddr_of_loc (w := .word) hd, memWrite_of_poke (w := .word) hu]

theorem jumpBit_of {tested : Bool} {qq : BitOff} {q : BitPos} {rel : Rel} {nx x : Word} {s : State}
    (hx : bitWordVal s qq = some x) :
    jumpBit tested qq q rel nx s = .ok (if x.getLsbD q.toNat = tested then relTarget nx rel else nx) s := by
  simp [jumpBit, readBit_of_val q hx]

theorem jumpBitModify_taken {tested : Bool} {qq : BitOff} {q : BitPos} {rel : Rel} {nx x : Word} {s u : State}
    {a : Addr} (ha : bitLoc s qq = some a) (hx : peek .word s a = some x) (hb : x.getLsbD q.toNat = tested)
    (hu : poke .word (setFlagsFor a (bitFlags tested) s) nx a (setBit x q !tested) = some u) :
    jumpBitModify tested qq q rel nx s = .ok (relTarget nx rel) u := by
  simp [jumpBitModify, bitWordAddr_of_loc ha, memRead_of_peek (w := .word) hx, hb, memWrite_of_poke (w := .word) hu]

theorem jumpBitModify_not {tested : Bool} {qq : BitOff} {q : BitPos} {rel : Rel} {nx x : Word} {s : State}
    (hx : bitWordVal s qq = some x) (hb : x.getLsbD q.toNat = !tested) :
    jumpBitModify tested qq q rel nx s = .ok nx (setFlags (bitFlags !tested) s) := by
  obtain ⟨a, ha, hx⟩ := Option.bind_eq_some_iff.mp hx
  simp [jumpBitModify, bitWordAddr_of_loc ha, memRead_of_peek (w := .word) hx, hb]

theorem pushReg_of {r : ShortReg} {nx v : Word} {s u : State} (hv : sourceVal .word s (.loc (.short r)) = some v)
    (hu : pushed s nx v = some u) : pushReg r nx s = .ok () (setFlags (moveFlags u.flags v) u) := by
  simp [pushReg, readLoc_of_val (w := .word) hv, push_of_pushed hu]

theorem popReg_of {r : ShortReg} {nx v : Word} {s u t : State} {d : Addr} (hu : popped s = some (v, u))
    (hd : shortLoc .word u r = some d) (ht : poke .word u nx d v = some t) :
    popReg r nx s = .ok () (setFlagsFor d (moveFlags t.flags v) t) := by
  simp [popReg, pop_of_popped hu, shortAddr_of_loc (w := .word) hd, memWrite_of_poke (w := .word) ht]

theorem switchContext_of {r : ShortReg} {src : Src} {nx v x : Word} {s u t : State} {d : Addr}
    (hv : sourceVal .word s (.loc (.short r)) = some v) (hx : sourceVal .word s src = some x)
    (hu : pushed s nx v = some u) (hd : shortLoc .word u r = some d) (ht : poke .word u nx d x = some t) :
    switchContext r src nx s = .ok () t := by
  simp [switchContext, readLoc_of_val (w := .word) hv, readSrc_of_val (w := .word) hx, push_of_pushed hu,
    shortAddr_of_loc (w := .word) hd, memWrite_of_poke (w := .word) ht]

theorem returnPop_of {r : ShortReg} {nx x v : Word} {s s1 s2 t : State} {d : Addr} (h1 : popped s = some (x, s1))
    (h2 : popped s1 = some (v, s2)) (hd : shortLoc .word s2 r = some d) (ht : poke .word s2 nx d v = some t) :
    returnPop r nx s = .ok x (setFlagsFor d (moveFlags t.flags v) t) := by
  simp [returnPop, pop_of_popped h1, pop_of_popped h2, shortAddr_of_loc (w := .word) hd,
    memWrite_of_poke (w := .word) ht]

theorem callPush_of {r : ShortReg} {a nx v : Word} {s u t : State}
    (hv : sourceVal .word s (.loc (.short r)) = some v) (hu : pushed s nx v = some u) (ht : pushed u nx nx = some t) :
    callPush r a nx s = .ok a (setFlags (moveFlags t.flags v) t) := by
  simp [callPush, readLoc_of_val (w := .word) hv, push_of_pushed hu, push_of_pushed ht]

end Sys2Proof.Machine
end

