-- ==== Sys2Proof/Laws/BodyFrames.lean ====
section
/-!
SUPPORT. What the body of each instruction leaves unchanged, where the map has no device: one lemma per body, over the
operation lemmas of Frames.lean.
-/

namespace Sys2Proof.Machine

/-- A store, then flags for its destination. -/
theorem storeFlags_frame {s : State} (h : NoDevices s) (w : Width) (nx : Word) (d : Addr) (v : BitVec w.bits)
    (f : State → Flags) :
    ((memWrite w nx d v s).bind fun _ t => .ok () (setFlagsFor d (f t) t)).Rel (FrameExcept [(w, d)]) s :=
  Res.Rel.seq ((memWrite_frame h w nx d v).imp fun _ k => k.frame) fun _ t _ =>
    ⟨(setFlagsFor_frame t d (f t)).mono (by simp), setFlagsFor_frames d (f t) t⟩

/-- A store to an operand, then flags for its destination. -/
theorem storeLocFlags_frame {s : State} (h : NoDevices s) (w : Width) (l : Loc) (nx : Word) (d : Addr)
    (v : BitVec w.bits) (f : State → Flags) :
    ((storeLoc w l nx d v s).bind fun _ t => .ok () (setFlagsFor d (f t) t)).Rel
      (FrameExcept [(storeWidth w l, d)]) s :=
  Res.Rel.seq ((storeLoc_frame h w l nx d v).imp fun _ k => k.frame) fun _ t _ =>
    ⟨(setFlagsFor_frame t d (f t)).mono (by simp), setFlagsFor_frames d (f t) t⟩

/-- A pointer written changes the word where its register lies. -/
theorem writeGpr_frame {s : State} (h : NoDevices s) (nx : Word) (k : RegNum) (v : Word) {p : Addr}
    (hp : gprLoc .word s k = some p) : (writeGpr .word nx k v s).Rel (FlaglessFrame [(.word, p)]) s := by
  unfold writeGpr
  rw [gprAddr_of_loc hp, bind_ok]
  exact memWrite_frame h .word nx p v

theorem gprLoc_setFlagsFor (w : Width) (d : Addr) (f : Flags) (s : State) (k : RegNum) :
    gprLoc w (setFlagsFor d f s) k = gprLoc w s k := by
  simp [gprLoc]

/-- A store, then flags for its destination, then the pointer. -/
theorem storeFlagsPtr_frame {s : State} (h : NoDevices s) (w : Width) (dst : Loc) (nx : Word) (d : Addr)
    (v : BitVec w.bits) (k : RegNum) (p : Word) (f : State → Flags) {l : List (Width × Addr)}
    (hl : storedThenPtr w dst s nx d v k = some l) :
    ((storeLoc w dst nx d v s).bind fun _ t => writeGpr .word nx k p (setFlagsFor d (f t) t)).Rel (FrameExcept l) s := by
  obtain ⟨u, hu, hl⟩ := Option.bind_eq_some_iff.mp hl
  obtain ⟨pa, hp, rfl⟩ := Option.map_eq_some_iff.mp hl
  have hw := storeLoc_frame h w dst nx d v
  refine Res.Rel.seq
    (hw.imp fun _ k => k.frame.mono (by simp)) fun _ t ht => ?_
  rw [storeLoc_of_pokeLoc hu] at ht hw
  cases ht
  have hf : FrameExcept [(storeWidth w dst, d), (.word, pa)] u (setFlagsFor d (f u) u) := (setFlagsFor_frame u d (f u)).mono (by simp)
  have hn : NoDevices (setFlagsFor d (f u) u) := h.of_par (hf.outside.1.trans hw.1.frame.outside.1)
  have hp := (writeGpr_frame hn nx k p ((gprLoc_setFlagsFor .word d (f u) u k).trans hp)).imp fun _ k =>
    k.frame.mono (m := [(storeWidth w dst, d), (.word, pa)]) (by simp)
  exact Res.Rel.seq
    (x := Res.ok () (setFlagsFor d (f u) u)) ⟨hf, setFlagsFor_frames d (f u) u⟩
    (f := fun _ u => writeGpr .word nx k p u) fun _ x hx => by
      cases hx
      exact hp

/-- The value of `[Rw+]` is that of `[Rw]`. -/
theorem readPostInc_value {s t : State} {w : Width} {k : RegNum} {v : PostInc w} {b : BitVec w.bits}
    (hb : sourceVal w s (.loc (.ind k)) = some b) (h : readPostInc w k s = .ok v t) : v.value = b := by
  obtain ⟨q, hq, hv⟩ := Option.bind_eq_some_iff.mp hb
  obtain ⟨p, hp, hl⟩ := Option.bind_eq_some_iff.mp hq
  rw [readPostInc_of hp hl hv] at h
  cases h
  rfl

/-- Flags written after reads. -/
theorem flags_frame (s : State) (f : Flags) : (Res.ok () (setFlags f s)).Rel (FrameExcept []) s :=
  ⟨setFlags_frame s f, rfl⟩

theorem alu_frame {s : State} (h : NoDevices s) (op : AluOp) (w : Width) (dst : Loc) (src : Src) (nx : Word) {d : Addr}
    (hd : operandLoc w s dst = some d) : (alu op w dst src nx s).Rel (FrameExcept [(storeWidth w dst, d)]) s :=
  (readSrc_pure h w src).read fun b _ => by
    rw [locAddr_of_loc hd, bind_ok]
    exact (memRead_pure h w d).read fun a _ => storeLocFlags_frame h w dst nx d _ fun _ => aluFlags op s.flags a b

theorem aluInc_frame {s : State} (h : NoDevices s) (op : AluOp) (w : Width) (n k : RegNum) (nx : Word) {d : Addr}
    {a b : BitVec w.bits} {l : List (Width × Addr)} (hb : sourceVal w s (.loc (.ind k)) = some b)
    (hd : gprLoc w s n = some d) (ha : peek w s d = some a)
    (hl : storedThenPtr w (.gpr n) s nx d (aluResult op s.flags a b) k = some l) :
    (aluInc op w n k nx s).Rel (FrameExcept l) s := by
  unfold aluInc
  split
  · trivial
  · refine (readPostInc_pure h w k).read fun v hv => ?_
    rw [gprAddr_of_loc hd, bind_ok, memRead_of_peek ha, bind_ok, readPostInc_value hb hv]
    exact storeFlagsPtr_frame h w (.gpr n) nx d _ k _ (fun _ => aluFlags op s.flags a b) hl

theorem complement_frame {s : State} (h : NoDevices s) (w : Width) (n : RegNum) (nx : Word) {d : Addr}
    (hd : gprLoc w s n = some d) : (complement w n nx s).Rel (FrameExcept [(w, d)]) s := by
  unfold complement
  rw [gprAddr_of_loc hd, bind_ok]
  exact (memRead_pure h w d).read fun a _ => by simpa using storeLocFlags_frame h w (.gpr n) nx d _ fun _ => cplFlags a

theorem negate_frame {s : State} (h : NoDevices s) (w : Width) (n : RegNum) (nx : Word) {d : Addr}
    (hd : gprLoc w s n = some d) : (negate w n nx s).Rel (FrameExcept [(w, d)]) s := by
  unfold negate
  rw [gprAddr_of_loc hd, bind_ok]
  exact (memRead_pure h w d).read fun a _ => by
    simpa using storeLocFlags_frame h w (.gpr n) nx d _ fun _ => subFlags 0 a false true

theorem mdFlags_frame (s : State) (x y : Word) (k : Nat) (f : Flags) :
    (Res.ok () (setFlags f { s with mdl := x, mdh := y, draws := k })).Rel (FrameExcept [atReg s .mdl, atReg s .mdh]) s :=
  ⟨(md_frame s x y k).frame.trans ((setFlags_frame _ f).mono (by simp)), rfl⟩

theorem multiply_frame {s : State} (h : NoDevices s) (signed : Bool) (n m : RegNum) (nx : Word) :
    (multiply signed n m nx s).Rel (FrameExcept [atReg s .mdl, atReg s .mdh]) s :=
  (readGpr_pure h .word n).read fun _ _ => (readGpr_pure h .word m).read fun _ _ => mdFlags_frame s _ _ s.draws _

theorem divide_frame {s : State} (h : NoDevices s) (kind : DivKind) (n : RegNum) (nx : Word) :
    (divide kind n nx s).Rel (FrameExcept [atReg s .mdl, atReg s .mdh]) s :=
  (readGpr_pure h .word n).read fun _ _ => mdFlags_frame s _ _ _ _

theorem bitPut_frame {s : State} (h : NoDevices s) (v : Bool) (qq : BitOff) (q : BitPos) (nx : Word) {a : Addr}
    (ha : bitLoc s qq = some a) : (bitPut v qq q nx s).Rel (FrameExcept [(.word, a)]) s := by
  unfold bitPut
  rw [bitWordAddr_of_loc ha, bind_ok]
  exact (memRead_pure h .word a).read fun w _ =>
    storeFlags_frame h .word nx a _ fun _ => bitFlags (w.getLsbD q.toNat)

theorem bitMove_frame {s : State} (h : NoDevices s) (negated : Bool) (zz : BitOff) (z : BitPos) (qq : BitOff)
    (q : BitPos) (nx : Word) {a : Addr} (ha : bitLoc s zz = some a) :
    (bitMove negated zz z qq q nx s).Rel (FrameExcept [(.word, a)]) s :=
  (readBit_pure h qq q).read fun b _ => by
    rw [bitWordAddr_of_loc ha, bind_ok]
    exact (memRead_pure h .word a).read fun _ _ => storeFlags_frame h .word nx a _ fun _ => bitFlags b

theorem bitLogic_frame {s : State} (h : NoDevices s) (op : BitOp) (zz : BitOff) (z : BitPos) (qq : BitOff)
    (q : BitPos) (nx : Word) {a : Addr} (ha : bitLoc s zz = some a) :
    (bitLogic op zz z qq q nx s).Rel (FrameExcept [(.word, a)]) s :=
  (readBit_pure h qq q).read fun b _ => by
    rw [bitWordAddr_of_loc ha, bind_ok]
    exact (memRead_pure h .word a).read fun w _ =>
      storeFlags_frame h .word nx a _ fun _ => twoBitFlags (w.getLsbD z.toNat) b

theorem bitCompare_frame {s : State} (h : NoDevices s) (zz : BitOff) (z : BitPos) (qq : BitOff) (q : BitPos)
    (nx : Word) : (bitCompare zz z qq q nx s).Rel (FrameExcept []) s :=
  (readBit_pure h qq q).read fun _ _ => (readBit_pure h zz z).read fun _ _ => flags_frame s _

theorem bitField_frame {s : State} (h : NoDevices s) (f : Half) (qq : BitOff) (mask d : Byte) (nx : Word) {a : Addr}
    (ha : bitLoc s qq = some a) : (bitField f qq mask d nx s).Rel (FrameExcept [(.word, a)]) s := by
  unfold bitField
  rw [bitWordAddr_of_loc ha, bind_ok]
  exact (memRead_pure h .word a).read fun w _ =>
    storeFlags_frame h .word nx a _ fun _ => fieldFlags (fieldResult f mask d w)

theorem compare_frame {s : State} (h : NoDevices s) (w : Width) (dst : Loc) (src : Src) (nx : Word) :
    (compare w dst src nx s).Rel (FrameExcept []) s :=
  (readSrc_pure h w src).read fun _ _ => (readLoc_pure h w dst).read fun _ _ => flags_frame s _

/-- Flags, then a store. -/
theorem flagsStore_frame {s u : State} (h : NoDevices s) (nx : Word) (a : Addr) (v : Word)
    (hu : FrameExcept [] s u) (hf : u.frames = s.frames) :
    (memWrite .word nx a v u).Rel (FrameExcept [(.word, a)]) s := by
  have hw := (memWrite_frame (h.of_par hu.outside.1) .word nx a v).imp fun _ k => k.frame
  exact Res.Rel.seq (x := Res.ok () u)
    ⟨hu.mono (by simp), hf⟩ (f := fun _ u => memWrite .word nx a v u) fun _ t ht => by
      cases ht
      exact hw

theorem compareInc_frame {s : State} (h : NoDevices s) (w : Width) (n k : RegNum) (nx : Word) {pa : Addr}
    (hp : gprLoc .word s k = some pa) : (compareInc w n k nx s).Rel (FrameExcept [(.word, pa)]) s := by
  unfold compareInc
  split
  · trivial
  · refine (readPostInc_pure h w k).read fun b hb => (readGpr_pure h w n).read fun a _ => ?_
    unfold writeGpr
    rw [gprAddr_of_loc (w := .word) (s := setFlags _ s) (a := pa) (by simpa [gprLoc] using hp), bind_ok]
    exact flagsStore_frame h nx pa _ (setFlags_frame s _) rfl

theorem compareStep_frame {s : State} (h : NoDevices s) (step : Word) (n : RegNum) (src : Src) (nx : Word) {d : Addr}
    (hd : gprLoc .word s n = some d) : (compareStep step n src nx s).Rel (FrameExcept [(.word, d)]) s :=
  (readSrc_pure h .word src).read fun _ _ => by
    rw [gprAddr_of_loc hd, bind_ok]
    exact (memRead_pure h .word d).read fun _ _ =>
      flagsStore_frame h nx d _ (setFlagsFor_frame s d _) (setFlagsFor_frames d _ s)

theorem shiftBy_frame {s : State} (h : NoDevices s) (kind : ShiftKind) (n : RegNum) (c : BitVec 4) (nx : Word)
    {d : Addr} (hd : gprLoc .word s n = some d) : (shiftBy kind n c nx s).Rel (FrameExcept [(.word, d)]) s := by
  unfold shiftBy
  rw [gprAddr_of_loc hd, bind_ok]
  exact (memRead_pure h .word d).read fun a _ => storeFlags_frame h .word nx d _ fun _ => shiftFlags kind a c.toNat

theorem shiftReg_frame {s : State} (h : NoDevices s) (kind : ShiftKind) (n m : RegNum) (nx : Word) {d : Addr}
    (hd : gprLoc .word s n = some d) : (shiftReg kind n m nx s).Rel (FrameExcept [(.word, d)]) s :=
  (readGpr_pure h .word m).read fun _ _ => shiftBy_frame h kind n _ nx hd

theorem prioritize_frame {s : State} (h : NoDevices s) (n m : RegNum) (nx : Word) {d : Addr}
    (hd : gprLoc .word s n = some d) : (prioritize n m nx s).Rel (FrameExcept [(.word, d)]) s :=
  (readGpr_pure h .word m).read fun x _ => by
    rw [gprAddr_of_loc hd, bind_ok]
    exact storeFlags_frame h .word nx d _ fun _ => priorFlags x

theorem move_frame {s : State} (h : NoDevices s) (w : Width) (dst : Loc) (src : Src) (nx : Word) {d : Addr}
    (hd : operandLoc w s dst = some d) : (move w dst src nx s).Rel (FrameExcept [(storeWidth w dst, d)]) s :=
  (readSrc_pure h w src).read fun v _ => by
    rw [locAddr_of_loc hd, bind_ok]
    exact storeLocFlags_frame h w dst nx d v fun t => moveFlags t.flags v

theorem moveFromInc_frame {s : State} (h : NoDevices s) (w : Width) (n m : RegNum) (nx : Word) {d : Addr}
    {v : BitVec w.bits} {l : List (Width × Addr)} (hv : sourceVal w s (.loc (.ind m)) = some v)
    (hd : gprLoc w s n = some d) (hl : storedThenPtr w (.gpr n) s nx d v m = some l) :
    (moveFromInc w n m nx s).Rel (FrameExcept l) s := by
  unfold moveFromInc
  split
  · trivial
  · refine (readPostInc_pure h w m).read fun x hx => ?_
    rw [gprAddr_of_loc hd, bind_ok, readPostInc_value hv hx]
    exact storeFlagsPtr_frame h w (.gpr n) nx d v m _ (fun t => moveFlags t.flags v) hl

theorem moveToDec_frame {s u : State} (h : NoDevices s) (w : Width) (m n : RegNum) (nx : Word) {d pa : Addr} {p : Word}
    (ha : gprLoc .word s m = some pa) (hp : peek .word s pa = some p)
    (hu : pokePtr s nx m (p - widthStep w) = some u) (hd : longLoc u (p - widthStep w) = some d) :
    (moveToDec w m n nx s).Rel (FrameExcept [(w, d), (.word, pa)]) s := by
  unfold moveToDec
  split
  · trivial
  · refine (readGpr_pure h w n).read fun v _ => ?_
    rw [readGpr_of_val (w := .word) (v := p) (by simp [gprVal, ha, hp]), bind_ok]
    have hw := writeGpr_frame h nx m (p - widthStep w) ha
    refine Res.Rel.seq
      (hw.imp fun _ k => k.frame.mono (by simp)) fun _ t ht => ?_
    rw [writeGpr_of_pokePtr hu] at ht hw
    cases ht
    rw [dataAddr_of_loc hd, bind_ok]
    exact (storeFlags_frame (h.of_par hw.1.frame.outside.1) w nx d v fun t => moveFlags t.flags v).imp
      fun _ k => k.mono (by simp)

theorem moveIncInd_frame {s : State} (h : NoDevices s) (w : Width) (n m : RegNum) (nx : Word) {d : Addr}
    {v : BitVec w.bits} {l : List (Width × Addr)} (hv : sourceVal w s (.loc (.ind m)) = some v)
    (hd : operandLoc w s (.ind n) = some d) (hl : storedThenPtr w (.ind n) s nx d v n = some l) :
    (moveIncInd w n m nx s).Rel (FrameExcept l) s := by
  unfold moveIncInd
  split
  · trivial
  · obtain ⟨p, hp, hq⟩ := Option.bind_eq_some_iff.mp hd
    rw [readLoc_of_val hv, bind_ok, readGpr_of_val (w := .word) hp, bind_ok, dataAddr_of_loc hq, bind_ok]
    simpa using storeFlagsPtr_frame h w (.ind n) nx d v n _ (fun t => moveFlags t.flags v) hl

theorem moveIndInc_frame {s : State} (h : NoDevices s) (w : Width) (n m : RegNum) (nx : Word) {d : Addr}
    {v : BitVec w.bits} {l : List (Width × Addr)} (hv : sourceVal w s (.loc (.ind m)) = some v)
    (hd : operandLoc w s (.ind n) = some d) (hl : storedThenPtr w (.ind n) s nx d v m = some l) :
    (moveIndInc w n m nx s).Rel (FrameExcept l) s := by
  unfold moveIndInc
  split
  · trivial
  · refine (readPostInc_pure h w m).read fun x hx => ?_
    rw [locAddr_of_loc hd, bind_ok, readPostInc_value hv hx]
    simpa using storeFlagsPtr_frame h w (.ind n) nx d v m _ (fun t => moveFlags t.flags v) hl

theorem moveExtend_frame {s : State} (h : NoDevices s) (x : Extend) (dst src : Loc) (nx : Word) {d : Addr}
    (hd : operandLoc .word s dst = some d) : (moveExtend x dst src nx s).Rel (FrameExcept [(.word, d)]) s :=
  (readLoc_pure h .byte src).read fun v _ => by
    rw [locAddr_of_loc hd, bind_ok]
    exact storeFlags_frame h .word nx d _ fun t => extendFlags x t.flags v

/-! Jumps, calls, the stack -/

theorem jumpInd_frame {s : State} (h : NoDevices s) (cc : Cond) (n : RegNum) (nx : Word) :
    (jumpInd cc n nx s).Rel (FlaglessFrame []) s := by
  unfold jumpInd
  split
  · exact (readGpr_pure h .word n).imp fun _ e => by rw [e]; exact .refl _ _
  · exact ⟨.refl _ _, rfl⟩

theorem jumpBit_frame {s : State} (h : NoDevices s) (tested : Bool) (qq : BitOff) (q : BitPos) (rel : Rel) (nx : Word) :
    (jumpBit tested qq q rel nx s).Rel (FlaglessFrame []) s :=
  (readBit_pure h qq q).read fun _ _ => ⟨.refl _ _, rfl⟩

theorem jumpBitModify_frame {s : State} (h : NoDevices s) (tested : Bool) (qq : BitOff) (q : BitPos) (rel : Rel)
    (nx : Word) {a : Addr} {x : Word} (ha : bitLoc s qq = some a) (hx : peek .word s a = some x) :
    (jumpBitModify tested qq q rel nx s).Rel
      (FrameExcept (if x.getLsbD q.toNat = tested then [(.word, a)] else [])) s := by
  unfold jumpBitModify
  rw [bitWordAddr_of_loc ha, bind_ok, memRead_of_peek hx, bind_ok]
  split
  · exact Res.Rel.seq
      (flagsStore_frame h nx a _ (setFlagsFor_frame s a _) (setFlagsFor_frames a _ s)) fun _ t _ => ⟨.refl _ _, rfl⟩
  · exact ⟨setFlags_frame s _, rfl⟩

theorem callAbs_frame {s : State} (h : NoDevices s) (cc : Cond) (a nx : Word) :
    (callAbs cc a nx s).Rel
      (FlaglessFrame (if condHolds cc s.flags then pushSlot s 1#16 :: stackRegs s else [])) s := by
  unfold callAbs
  split
  · exact Res.Rel.seqFlagless (push_frame h nx nx) fun _ t _ => ⟨.refl _ _, rfl⟩
  · exact ⟨.refl _ _, rfl⟩

theorem callInd_frame {s : State} (h : NoDevices s) (cc : Cond) (n : RegNum) (nx : Word) :
    (callInd cc n nx s).Rel
      (FlaglessFrame (if condHolds cc s.flags then pushSlot s 1#16 :: stackRegs s else [])) s := by
  unfold callInd
  split
  · exact (readGpr_pure h .word n).read fun x _ =>
      Res.Rel.seqFlagless (push_frame h nx nx) fun _ t _ => ⟨.refl _ _, rfl⟩
  · exact ⟨.refl _ _, rfl⟩

theorem callRel_frame {s : State} (h : NoDevices s) (rel : Rel) (nx : Word) :
    (callRel rel nx s).Rel (FlaglessFrame (pushSlot s 1#16 :: stackRegs s)) s :=
  Res.Rel.seqFlagless (push_frame h nx nx) fun _ _ _ => ⟨.refl _ _, rfl⟩

/-- Two pushes. -/
theorem push2_frame {s u : State} (h : NoDevices s) (nx v w : Word) (hu : pushed s nx v = some u) :
    ((push nx v s).bind fun _ t => push nx w t).Rel
      (FlaglessFrame (pushSlot s 1#16 :: pushSlot u 1#16 :: stackRegs s)) s := by
  have hp := push_frame h nx v
  refine Res.Rel.seqFlagless
    (hp.imp fun _ k => k.mono (List.cons_subset_cons _ (by simp))) fun _ t ht => ?_
  rw [push_of_pushed hu] at ht hp
  cases ht
  have hpar : u.par = s.par := hp.1.frame.outside.1
  refine (push_frame (h.of_par hpar) nx w).imp fun _ k => k.mono ?_
  rw [stackRegs_congr hpar]
  simp

theorem callSeg_frame {s u : State} (h : NoDevices s) (seg : SegNum) (a nx : Word)
    (hu : pushed s nx (s.csp.setWidth 16) = some u) :
    (callSeg seg a nx s).Rel
      (FlaglessFrame (pushSlot s 1#16 :: pushSlot u 1#16 :: atReg s .csp :: stackRegs s)) s := by
  have h2 := push2_frame h nx (s.csp.setWidth 16) nx hu
  have hb : callSeg seg a nx s =
      ((push nx (s.csp.setWidth 16) s).bind fun _ t => push nx nx t).bind fun _ t => .ok a { t with csp := seg } := by
    unfold callSeg
    cases push nx (zext16 s.csp) s <;> rfl
  rw [hb]
  exact Res.Rel.seqFlagless (h2.imp fun _ k => k.mono (m := pushSlot s 1#16 :: pushSlot u 1#16 ::
    atReg s .csp :: stackRegs s) (by
    intro p hp
    simp only [List.mem_cons] at hp ⊢
    tauto)) fun _ t ht => ⟨(csp_frame t seg).mono (by
    rw [ht] at h2
    simp [atReg_congr h2.1.frame.outside.1]), rfl⟩

theorem callPush_frame {s u : State} (h : NoDevices s) (r : ShortReg) (a nx : Word) {v : Word}
    (hv : sourceVal .word s (.loc (.short r)) = some v) (hu : pushed s nx v = some u) :
    (callPush r a nx s).Rel (FrameExcept (pushSlot s 1#16 :: pushSlot u 1#16 :: stackRegs s)) s := by
  have h2 := push2_frame h nx v nx hu
  have hb : callPush r a nx s =
      ((push nx v s).bind fun _ t => push nx nx t).bind fun _ t => .ok a (setFlags (moveFlags t.flags v) t) := by
    unfold callPush
    rw [readLoc_of_val hv, bind_ok]
    cases push nx v s <;> rfl
  rw [hb]
  exact Res.Rel.seq (h2.imp fun _ k => k.frame) fun _ t _ =>
    ⟨(setFlags_frame t _).mono (by simp), rfl⟩

theorem pushReg_frame {s : State} (h : NoDevices s) (r : ShortReg) (nx : Word) :
    (pushReg r nx s).Rel (FrameExcept (pushSlot s 1#16 :: stackRegs s)) s :=
  (readLoc_pure h .word (.short r)).read fun v _ =>
    Res.Rel.seq ((push_frame h nx v).imp fun _ k => k.frame) fun _ t _ =>
      ⟨(setFlags_frame t _).mono (by simp), rfl⟩

/-- A pop leaves what forms a short address. -/
theorem pop_short {s t : State} (h : NoDevices s) {v : Word} (ht : pop s = .ok v t) (w : Width) (r : ShortReg) :
    shortAddr w r t = match shortAddr w r s with
      | .ok d _ => .ok d t
      | .trap k _ => .trap k t
      | .fault e => .fault e
      | .refused e => .refused e := by
  have hr := memRead_pure h .word (near s.sp)
  unfold pop at ht
  split at ht
  · exact absurd ht (by simp)
  · obtain ⟨y, u, h1, h3⟩ := bind_eq_ok ht
    rw [h1] at hr
    obtain ⟨rfl, -⟩ := hr
    have ht' : ((checkUnderflow { u with sp := u.sp + 2#16 }).bind fun _ s => Res.ok y s) = .ok v t := h3
    obtain ⟨_, z, h2, h4⟩ := bind_eq_ok ht'
    cases h4
    have key : t.extEsfr = u.extEsfr ∧ t.hazIn = u.hazIn ∧ t.cp = u.cp := by
      unfold checkUnderflow at h2
      split at h2
      · split at h2
        · cases h2
          exact ⟨rfl, rfl, rfl⟩
        · exact absurd h2 (by simp)
      · cases h2
        exact ⟨rfl, rfl, rfl⟩
    unfold shortAddr gprAddr
    rw [key.1, key.2.1, key.2.2]
    split
    · split
      · rfl
      · split <;> rfl
    · rfl

theorem popReg_frame {s : State} (h : NoDevices s) (r : ShortReg) (nx : Word) {d : Addr}
    (hd : shortLoc .word s r = some d) : (popReg r nx s).Rel (FrameExcept ((.word, d) :: stackRegs s)) s := by
  have hp := pop_frame h
  refine Res.Rel.seq
    (hp.imp fun _ k => k.frame.mono (by simp)) fun v t ht => ?_
  rw [ht] at hp
  rw [pop_short h ht, shortAddr_of_loc hd]
  exact (storeFlags_frame (h.of_par hp.1.frame.outside.1) .word nx d v fun t => moveFlags t.flags v).imp
    fun _ k => k.mono (by simp)

theorem returnPop_frame {s : State} (h : NoDevices s) (r : ShortReg) (nx : Word) {d : Addr}
    (hd : shortLoc .word s r = some d) : (returnPop r nx s).Rel (FrameExcept ((.word, d) :: stackRegs s)) s := by
  have hp := pop_frame h
  refine Res.Rel.seq
    (hp.imp fun _ k => k.frame.mono (by simp)) fun x t ht => ?_
  rw [ht] at hp
  have hn : NoDevices t := h.of_par hp.1.frame.outside.1
  have hs : shortAddr .word r t = .ok d t := by rw [pop_short h ht, shortAddr_of_loc hd]
  have hq := pop_frame hn
  rw [stackRegs_congr hp.1.frame.outside.1] at hq
  refine Res.Rel.seq
    (hq.imp fun _ k => k.frame.mono (by simp)) fun v u hu => ?_
  rw [hu] at hq
  rw [pop_short hn hu, hs]
  have hw := (storeFlags_frame (hn.of_par hq.1.frame.outside.1) .word nx d v fun t => moveFlags t.flags v)
  have hb : (memWrite .word nx d v u).bind (fun _ s => Res.ok x (setFlagsFor d (moveFlags s.flags v) s)) =
      ((memWrite .word nx d v u).bind fun _ s => Res.ok () (setFlagsFor d (moveFlags s.flags v) s)).bind
        fun _ s => Res.ok x s := by
    cases memWrite .word nx d v u <;> rfl
  show ((memWrite .word nx d v u).bind fun _ s => Res.ok x (setFlagsFor d (moveFlags s.flags v) s)).Rel _ _
  rw [hb]
  exact Res.Rel.seq (hw.imp fun _ k => k.mono (by simp)) fun _ t _ => ⟨.refl _ _, rfl⟩

theorem switchContext_frame {s u : State} (h : NoDevices s) (r : ShortReg) (src : Src) (nx : Word) {v : Word} {d : Addr}
    (hv : sourceVal .word s (.loc (.short r)) = some v) (hu : pushed s nx v = some u)
    (hd : shortLoc .word u r = some d) :
    (switchContext r src nx s).Rel (FlaglessFrame ((.word, d) :: pushSlot s 1#16 :: stackRegs s)) s := by
  unfold switchContext
  rw [readLoc_of_val hv, bind_ok]
  refine (readSrc_pure h .word src).read fun x _ => ?_
  have hp := push_frame h nx v
  refine Res.Rel.seqFlagless
    (hp.imp fun _ k => k.mono (by simp)) fun _ t ht => ?_
  rw [push_of_pushed hu] at ht hp
  cases ht
  rw [shortAddr_of_loc hd, bind_ok]
  exact (memWrite_frame (h.of_par hp.1.frame.outside.1) .word nx d x).imp fun _ k => k.mono (by simp)

theorem returnSeg_frame {s : State} (h : NoDevices s) (nx : Word) :
    (returnSeg nx s).Rel (FlaglessFrame (atReg s .csp :: stackRegs s)) s := by
  have hp := pop_frame h
  refine Res.Rel.seqFlagless
    (hp.imp fun _ k => k.mono (by simp)) fun x t ht => ?_
  rw [ht] at hp
  have hq := pop_frame (h.of_par hp.1.frame.outside.1)
  rw [stackRegs_congr hp.1.frame.outside.1] at hq
  exact Res.Rel.seqFlagless
    (hq.imp fun _ k => k.mono (by simp)) fun c u hu => ⟨(csp_frame u _).mono (by
      rw [hu] at hq
      simp [atReg_congr (hq.1.frame.outside.1.trans hp.1.frame.outside.1)]), rfl⟩

/-- RETI that answers: beside the pending requests and the record of unfinished routines it changes the PSW, CSP and what
its pops change. -/
theorem returnInterrupt_frame {s t : State} {nx x : Word} (h : NoDevices s) (ht : returnInterrupt nx s = .ok x t) :
    FrameExcept (atReg s .psw :: atReg s .csp :: stackRegs s) s
      { t with
        pendNmi := s.pendNmi, pendStkof := s.pendStkof, pendStkuf := s.pendStkuf, retrapB := s.retrapB } := by
  unfold returnInterrupt at ht
  split at ht
  · exact absurd ht (by simp)
  obtain ⟨_, s1, h1, ht⟩ := bind_eq_ok ht
  obtain ⟨c, s2, h2, ht⟩ := bind_eq_ok ht
  obtain ⟨p, s3, h3, ht⟩ := bind_eq_ok ht
  have f1 := pop_frame h
  rw [h1] at f1
  have e1 := f1.1.frame.outside.1
  have f2 : FlaglessFrame (atReg s1 .csp :: stackRegs s1) s1 s2 := by
    split at h2
    · cases h2
      exact .refl _ _
    · obtain ⟨c, u, hp, h2⟩ := bind_eq_ok h2
      cases h2
      have f2 := pop_frame (h.of_par e1)
      rw [hp] at f2
      have hc := csp_frame u (loByte c)
      rw [atReg_congr f2.1.frame.outside.1] at hc
      exact (f2.1.mono (by simp)).trans (hc.mono (by simp))
  have e2 := f2.frame.outside.1.trans e1
  have f3 := pop_frame (h.of_par e2)
  rw [h3] at f3
  rw [stackRegs_congr e1, atReg_congr e1] at f2
  rw [stackRegs_congr e2] at f3
  have f := (((f1.1.mono (by simp)).trans f2).trans (f3.1.mono (by simp))).frame
  cases ht
  constructor
  · intro a ha
    rw [← f.bytes a fun q hq => ha q (by simp [hq])]
    exact byteAt_congr _ _ (by simp) _
  · intro r hr ha
    rw [← f.regs r hr fun q hq => ha q (by simp [hq])]
    have hc : r ≠ .csp := by
      rintro rfl
      exact ha (atReg s .csp) (by simp) rfl
    cases r <;> first | exact absurd rfl hr | exact absurd rfl hc | simp [readCpuReg]
  · exact fun ha => absurd rfl (ha (atReg s .psw) (by simp))
  · intro ha
    simpa using f.irqRegs fun q hq y hy => ha q hq y (by simp [hy])
  · simpa using f.sequence
  · simpa using f.modes
  · exact ⟨rfl, rfl⟩
  · exact fun _ => ⟨rfl, rfl⟩
  · simpa using f.outside

end Sys2Proof.Machine
end

