-- ==== Sys2Proof/Laws/BodyInvariant.lean ====
section
/-!
SUPPORT. The body of each instruction keeps the invariant, whether it answers or raises a trap: one lemma per body, over
the operation lemmas of Invariant.lean.
-/

namespace Sys2Proof.Machine

theorem Keeps.ok {α : Type} {v : α} {s : State} {P : State → Prop} (h : P s) : (Res.ok v s).Keeps P := h

theorem alu_keeps {s : State} (h : Inv s) (op) (w) (d) (o) (nx) : (alu op w d o nx s).Keeps Inv :=
  (readSrc_keeps h w o).bind fun _ _ h1 => (locAddr_keeps h1 w d).bind fun a _ h2 =>
    (memRead_keeps h2 w a).bind fun _ _ h3 => (storeLoc_keeps h3 w d nx a _).bind fun _ _ h4 => h4.setFlagsFor _ _

theorem aluInc_keeps {s : State} (h : Inv s) (op) (w) (n k) (nx) : (aluInc op w n k nx s).Keeps Inv :=
  Res.Keeps.ite (fun _ => trivial) fun _ => (readPostInc_keeps h w k).bind fun _ _ h1 =>
    (gprAddr_keeps h1 w n).bind fun a _ h2 => (memRead_keeps h2 w a).bind fun _ _ h3 =>
    (storeLoc_keeps h3 w _ nx a _).bind fun _ _ h4 => writeGpr_keeps (h4.setFlagsFor _ _) .word _ _ _

theorem complement_keeps {s : State} (h : Inv s) (w) (n) (nx) : (complement w n nx s).Keeps Inv :=
  (gprAddr_keeps h w n).bind fun a _ h2 => (memRead_keeps h2 w a).bind fun _ _ h3 =>
    (storeLoc_keeps h3 w _ nx a _).bind fun _ _ h4 => (h4.setFlagsFor _ _)

theorem negate_keeps {s : State} (h : Inv s) (w) (n) (nx) : (negate w n nx s).Keeps Inv :=
  (gprAddr_keeps h w n).bind fun a _ h2 => (memRead_keeps h2 w a).bind fun _ _ h3 =>
    (storeLoc_keeps h3 w _ nx a _).bind fun _ _ h4 => (h4.setFlagsFor _ _)

theorem Inv.withMd {s : State} (h : Inv s) (x y : Word) (n : Nat) : Inv { s with mdl := x, mdh := y, draws := n }
  :=
  h.congr rfl rfl rfl rfl rfl rfl rfl rfl rfl rfl rfl

theorem multiply_keeps {s : State} (h : Inv s) (g) (n m) (nx) : (multiply g n m nx s).Keeps Inv :=
  (readGpr_keeps h .word n).bind fun _ _ h2 => (readGpr_keeps h2 .word m).bind fun _ s3 h3 =>
    (h3.withMd _ _ s3.draws).setFlags _

theorem divide_keeps {s : State} (h : Inv s) (g) (n) (nx) : (divide g n nx s).Keeps Inv :=
  (readGpr_keeps h .word n).bind fun _ _ h3 => (h3.withMd _ _ _).setFlags _

theorem bitPut_keeps {s : State} (h : Inv s) (v q p) (nx) : (bitPut v q p nx s).Keeps Inv :=
  (bitWordAddr_keeps h q).bind fun a _ h2 => (memRead_keeps h2 .word a).bind fun _ _ h3 =>
    (memWrite_keeps h3 .word nx a _).bind fun _ _ h4 => (h4.setFlagsFor _ _)

theorem bitMove_keeps {s : State} (h : Inv s) (v z zp q p) (nx) : (bitMove v z zp q p nx s).Keeps Inv :=
  (readBit_keeps h q p).bind fun _ _ h1 => (bitWordAddr_keeps h1 z).bind fun a _ h2 =>
    (memRead_keeps h2 .word a).bind fun _ _ h3 => (memWrite_keeps h3 .word nx a _).bind fun _ _ h4 =>
    (h4.setFlagsFor _ _)

theorem bitLogic_keeps {s : State} (h : Inv s) (v z zp q p) (nx) : (bitLogic v z zp q p nx s).Keeps Inv :=
  (readBit_keeps h q p).bind fun _ _ h1 => (bitWordAddr_keeps h1 z).bind fun a _ h2 =>
    (memRead_keeps h2 .word a).bind fun _ _ h3 => (memWrite_keeps h3 .word nx a _).bind fun _ _ h4 =>
    (h4.setFlagsFor _ _)

theorem bitCompare_keeps {s : State} (h : Inv s) (z zp q p) (nx) : (bitCompare z zp q p nx s).Keeps Inv :=
  (readBit_keeps h q p).bind fun _ _ h1 => (readBit_keeps h1 z zp).bind fun _ _ h4 => (h4.setFlags _)

theorem bitField_keeps {s : State} (h : Inv s) (v q p d) (nx) : (bitField v q p d nx s).Keeps Inv :=
  (bitWordAddr_keeps h q).bind fun a _ h2 => (memRead_keeps h2 .word a).bind fun _ _ h3 =>
    (memWrite_keeps h3 .word nx a _).bind fun _ _ h4 => (h4.setFlagsFor _ _)

theorem compare_keeps {s : State} (h : Inv s) (w) (d) (o) (nx) : (compare w d o nx s).Keeps Inv :=
  (readSrc_keeps h w o).bind fun _ _ h1 => (readLoc_keeps h1 w d).bind fun _ _ h4 => (h4.setFlags _)

theorem compareInc_keeps {s : State} (h : Inv s) (w) (n k) (nx) : (compareInc w n k nx s).Keeps Inv :=
  Res.Keeps.ite (fun _ => trivial) fun _ => (readPostInc_keeps h w k).bind fun _ _ h1 =>
    (readGpr_keeps h1 w n).bind fun _ _ h4 => writeGpr_keeps (h4.setFlags _) .word _ _ _

theorem compareStep_keeps {s : State} (h : Inv s) (a) (n) (o) (nx) : (compareStep a n o nx s).Keeps Inv :=
  (readSrc_keeps h .word o).bind fun _ _ h1 => (gprAddr_keeps h1 .word n).bind fun a _ h2 =>
    (memRead_keeps h2 .word a).bind fun _ _ h3 => memWrite_keeps (h3.setFlagsFor _ _) _ _ _ _

theorem shiftBy_keeps {s : State} (h : Inv s) (a) (n) (o) (nx) : (shiftBy a n o nx s).Keeps Inv :=
  (gprAddr_keeps h .word n).bind fun a _ h2 => (memRead_keeps h2 .word a).bind fun _ _ h3 =>
    (memWrite_keeps h3 .word nx a _).bind fun _ _ h4 => (h4.setFlagsFor _ _)

theorem shiftImm_keeps {s : State} (h : Inv s) (a) (n) (o) (nx) : (shiftImm a n o nx s).Keeps Inv :=
  shiftBy_keeps h a n o nx

theorem shiftReg_keeps {s : State} (h : Inv s) (a) (n m) (nx) : (shiftReg a n m nx s).Keeps Inv :=
  (readGpr_keeps h .word m).bind fun _ _ h2 => shiftBy_keeps h2 _ _ _ _

theorem prioritize_keeps {s : State} (h : Inv s) (n m) (nx) : (prioritize n m nx s).Keeps Inv :=
  (readGpr_keeps h .word m).bind fun _ _ h2 => (gprAddr_keeps h2 .word n).bind fun a _ h3 =>
    (memWrite_keeps h3 .word nx a _).bind fun _ _ h4 => (h4.setFlagsFor _ _)

theorem move_keeps {s : State} (h : Inv s) (w) (d) (o) (nx) : (move w d o nx s).Keeps Inv :=
  (readSrc_keeps h w o).bind fun _ _ h1 => (locAddr_keeps h1 w d).bind fun a _ h2 =>
    (storeLoc_keeps h2 w d nx a _).bind fun _ _ h4 => h4.setFlagsFor _ _

theorem moveFromInc_keeps {s : State} (h : Inv s) (w) (n k) (nx) : (moveFromInc w n k nx s).Keeps Inv :=
  Res.Keeps.ite (fun _ => trivial) fun _ => (readPostInc_keeps h w k).bind fun _ _ h1 =>
    (gprAddr_keeps h1 w n).bind fun a _ h2 => (storeLoc_keeps h2 w _ nx a _).bind fun _ _ h4 =>
    writeGpr_keeps (h4.setFlagsFor _ _) .word _ _ _

theorem moveToDec_keeps {s : State} (h : Inv s) (w) (n k) (nx) : (moveToDec w n k nx s).Keeps Inv :=
  Res.Keeps.ite (fun _ => trivial) fun _ => (readGpr_keeps h w k).bind fun _ _ h1 =>
    (readGpr_keeps h1 .word n).bind fun _ _ h3 => (writeGpr_keeps h3 .word nx n _).bind fun _ _ h4 =>
    (dataAddr_keeps h4 _).bind fun a _ h5 => (memWrite_keeps h5 w nx a _).bind fun _ _ h4 => h4.setFlagsFor _ _

theorem moveIncInd_keeps {s : State} (h : Inv s) (w) (n k) (nx) : (moveIncInd w n k nx s).Keeps Inv :=
  Res.Keeps.ite (fun _ => trivial) fun _ => (readLoc_keeps h w _).bind fun _ _ h1 =>
    (readGpr_keeps h1 .word n).bind fun _ _ h3 => (dataAddr_keeps h3 _).bind fun a _ h5 =>
    (memWrite_keeps h5 w nx a _).bind fun _ _ h4 => writeGpr_keeps (h4.setFlagsFor _ _) .word _ _ _

theorem moveIndInc_keeps {s : State} (h : Inv s) (w) (n k) (nx) : (moveIndInc w n k nx s).Keeps Inv :=
  Res.Keeps.ite (fun _ => trivial) fun _ => (readPostInc_keeps h w k).bind fun _ _ h1 =>
    (locAddr_keeps h1 w _).bind fun a _ h2 => (memWrite_keeps h2 w nx a _).bind fun _ _ h4 =>
    writeGpr_keeps (h4.setFlagsFor _ _) .word _ _ _

theorem moveExtend_keeps {s : State} (h : Inv s) (x d o nx) : (moveExtend x d o nx s).Keeps Inv :=
  (readLoc_keeps h .byte o).bind fun _ _ h1 => (locAddr_keeps h1 .word d).bind fun a _ h2 =>
    (memWrite_keeps h2 .word nx a _).bind fun _ _ h4 => h4.setFlagsFor _ _

theorem Inv.withCsp {s : State} (h : Inv s) (x) : Inv { s with csp := x } :=
  h.congr rfl rfl rfl rfl rfl rfl rfl rfl rfl rfl rfl

theorem jumpRel_keeps {s : State} (h : Inv s) (a b nx) : (jumpRel a b nx s).Keeps Inv := h

theorem jumpAbs_keeps {s : State} (h : Inv s) (a b nx) : (jumpAbs a b nx s).Keeps Inv := h

theorem jumpInd_keeps {s : State} (h : Inv s) (a b nx) : (jumpInd a b nx s).Keeps Inv :=
  Res.Keeps.ite (fun _ => readGpr_keeps h .word _) fun _ => h

theorem jumpSeg_keeps {s : State} (h : Inv s) (a b nx) : (jumpSeg a b nx s).Keeps Inv := h.withCsp _

theorem jumpBit_keeps {s : State} (h : Inv s) (a b c d nx) : (jumpBit a b c d nx s).Keeps Inv :=
  (readBit_keeps h _ _).bind fun _ _ h => h

theorem jumpBitModify_keeps {s : State} (h : Inv s) (a b c d nx) : (jumpBitModify a b c d nx s).Keeps Inv :=
  (bitWordAddr_keeps h _).bind fun _ _ h1 => (memRead_keeps h1 .word _).bind fun _ _ h2 => Res.Keeps.ite (fun _ =>
    (memWrite_keeps (h2.setFlagsFor _ _) .word _ _ _).bind fun _ _ h => h) fun _ => h2.setFlags _

theorem callAbs_keeps {s : State} (h : Inv s) (a b nx) : (callAbs a b nx s).Keeps Inv :=
  Res.Keeps.ite (fun _ => (push_keeps h _ _).bind fun _ _ h => h) fun _ => h

theorem callInd_keeps {s : State} (h : Inv s) (a b nx) : (callInd a b nx s).Keeps Inv :=
  Res.Keeps.ite (fun _ => (readGpr_keeps h .word _).bind fun _ _ h => (push_keeps h _ _).bind fun _ _ h =>
    h) fun _ => h

theorem callRel_keeps {s : State} (h : Inv s) (a nx) : (callRel a nx s).Keeps Inv :=
  (push_keeps h _ _).bind fun _ _ h => h

theorem callSeg_keeps {s : State} (h : Inv s) (a b nx) : (callSeg a b nx s).Keeps Inv :=
  (push_keeps h _ _).bind fun _ _ h => (push_keeps h _ _).bind fun _ _ h => h.withCsp _

theorem callPush_keeps {s : State} (h : Inv s) (a b nx) : (callPush a b nx s).Keeps Inv :=
  (readLoc_keeps h .word _).bind fun _ _ h => (push_keeps h _ _).bind fun _ _ h =>
    (push_keeps h _ _).bind fun _ _ h => h.setFlags _

theorem softwareTrap_keeps {s : State} (h : Inv s) (a nx) : (softwareTrap a nx s).Keeps Inv :=
  Res.Keeps.ite (fun _ => trivial) fun _ => (push_keeps h _ _).bind fun _ _ h =>
    (Res.Keeps.ite (P := Inv) (fun _ => Keeps.ok h) (fun _ => push_keeps h _ _)).bind fun _ _ h =>
    (push_keeps h _ _).bind fun _ _ h => h.congr rfl rfl rfl rfl rfl rfl rfl rfl rfl rfl rfl

theorem pushReg_keeps {s : State} (h : Inv s) (a nx) : (pushReg a nx s).Keeps Inv :=
  (readLoc_keeps h .word _).bind fun _ _ h => (push_keeps h _ _).bind fun _ _ h => h.setFlags _

theorem popReg_keeps {s : State} (h : Inv s) (a nx) : (popReg a nx s).Keeps Inv :=
  (pop_keeps h).bind fun _ _ h => (shortAddr_keeps h .word _).bind fun _ _ h =>
    (memWrite_keeps h .word _ _ _).bind fun _ _ h => h.setFlagsFor _ _

theorem switchContext_keeps {s : State} (h : Inv s) (a b nx) : (switchContext a b nx s).Keeps Inv :=
  (readLoc_keeps h .word _).bind fun _ _ h => (readSrc_keeps h .word _).bind fun _ _ h =>
    (push_keeps h _ _).bind fun _ _ h => (shortAddr_keeps h .word _).bind fun _ _ h =>
    (memWrite_keeps h .word _ _ _)

theorem returnNear_keeps {s : State} (h : Inv s) (nx) : (returnNear nx s).Keeps Inv := pop_keeps h

theorem returnSeg_keeps {s : State} (h : Inv s) (nx) : (returnSeg nx s).Keeps Inv :=
  (pop_keeps h).bind fun _ _ h => (pop_keeps h).bind fun _ _ h => h.withCsp _

theorem returnPop_keeps {s : State} (h : Inv s) (a nx) : (returnPop a nx s).Keeps Inv :=
  (pop_keeps h).bind fun _ _ h => (pop_keeps h).bind fun _ _ h => (shortAddr_keeps h .word _).bind fun _ _ h =>
    (memWrite_keeps h .word _ _ _).bind fun _ _ h => h.setFlagsFor _ _

theorem Inv.withPsw {s : State} (h : Inv s) (v) : Inv { s with psw := v &&& pswMask s.par.psw } where
  memory := h.memory
  psw := and_mask_reserved v _
  tfr := h.tfr
  cp := h.cp
  sp := h.sp
  count := h.count
  modes := h.modes
  locked := h.locked

theorem returnInterrupt_keeps {s : State} (h : Inv s) (nx) : (returnInterrupt nx s).Keeps Inv :=
  Res.Keeps.ite (fun _ => trivial) fun _ => (pop_keeps h).bind fun _ _ h => (Res.Keeps.ite (P := Inv) (fun _ =>
    Keeps.ok h) (fun _ => (pop_keeps h).bind fun _ _ h => Keeps.ok (h.withCsp _))).bind fun _ _ h =>
    (pop_keeps h).bind fun _ _ h => (h.withPsw _).leaveFrame

theorem softwareReset_keeps {s : State} (h : Inv s) (nx) : (softwareReset nx s).Keeps Inv := h.resetCpu

theorem enterIdle_keeps {s : State} (h : Inv s) (nx) : (enterIdle nx s).Keeps Inv :=
  Res.Keeps.ite (fun _ => h.congr rfl rfl rfl rfl rfl rfl rfl rfl rfl rfl rfl) fun _ => trivial

theorem enterPowerDown_keeps {s : State} (h : Inv s) (nx) : (enterPowerDown nx s).Keeps Inv :=
  h.congr rfl rfl rfl rfl rfl rfl rfl rfl rfl rfl rfl

theorem serviceWatchdog_keeps {s : State} (h : Inv s) (nx) : (serviceWatchdog nx s).Keeps Inv :=
  { h with locked := fun _ => rfl }

theorem disableWatchdog_keeps {s : State} (h : Inv s) (nx) : (disableWatchdog nx s).Keeps Inv :=
  h.congr rfl rfl rfl rfl rfl rfl rfl rfl rfl rfl rfl

theorem endInit_keeps {s : State} (h : Inv s) (nx) : (endInit nx s).Keeps Inv := { h with locked := fun _ => rfl }

theorem seqLength_le (k) : seqLength k ≤ 4 := by
  unfold seqLength
  omega

theorem beginAtomic_keeps {s : State} (h : Inv s) (k nx) : (beginAtomic k nx s).Keeps Inv :=
  { h with count := seqLength_le k, modes := fun e => by simp [seqLength] at e }

theorem beginExtend_keeps {s : State} (h : Inv s) (a b k) : (beginExtend a b k s).Keeps Inv :=
  Res.Keeps.ite (fun _ => trivial) fun _ =>
    { memory := h.memory, psw := h.psw, tfr := h.tfr, cp := h.cp, sp := h.sp, locked := h.locked, count :=
      seqLength_le k, modes := fun e =>
    by simp [seqLength] at e }

theorem beginEsfr_keeps {s : State} (h : Inv s) (k nx) : (beginEsfr k nx s).Keeps Inv := beginExtend_keeps h _ _ _

theorem beginPageReg_keeps {s : State} (h : Inv s) (a m k nx) : (beginPageReg a m k nx s).Keeps Inv :=
  (readGpr_keeps h .word m).bind fun _ _ h => beginExtend_keeps h _ _ _

theorem beginPageImm_keeps {s : State} (h : Inv s) (a m k nx) : (beginPageImm a m k nx s).Keeps Inv :=
  beginExtend_keeps h _ _ _

theorem beginSegReg_keeps {s : State} (h : Inv s) (a m k nx) : (beginSegReg a m k nx s).Keeps Inv :=
  (readGpr_keeps h .word m).bind fun _ _ h => beginExtend_keeps h _ _ _

theorem beginSegImm_keeps {s : State} (h : Inv s) (a m k nx) : (beginSegImm a m k nx s).Keeps Inv :=
  beginExtend_keeps h _ _ _

theorem macOpcode_keeps {s : State} (h : Inv s) (nx) : (macOpcode nx s).Keeps Inv :=
  Res.Keeps.ite (fun _ => trivial) fun _ => h

theorem undefinedOpcode_keeps {s : State} (h : Inv s) (nx) : (undefinedOpcode nx s).Keeps Inv := h

theorem protectionFault_keeps {s : State} (h : Inv s) (nx) : (protectionFault nx s).Keeps Inv := h

theorem nop_keeps {s : State} (h : Inv s) (_ : Word) : (Res.ok () s).Keeps Inv := h

end Sys2Proof.Machine
end

