-- ==== Sys2Proof/Laws/Encoding.lean ====
section
/-!
SUPPORT. The fields of an instruction's bytes: reading a field back from the byte it was packed into.
-/

namespace Sys2Proof

@[simp] theorem nibHi_packNib (a b : BitVec 4) : nibHi (packNib a b) = a := by
  revert a b; decide
@[simp] theorem nibLo_packNib (a b : BitVec 4) : nibLo (packNib a b) = b := by
  revert a b; decide
@[simp] theorem nibLo_ofNat (n : Nat) : nibLo (BitVec.ofNat 8 n) = BitVec.ofNat 4 n := by
  apply BitVec.eq_of_toNat_eq
  simp only [nibLo, BitVec.extractLsb'_toNat, BitVec.toNat_ofNat, Nat.shiftRight_zero]
  omega
@[simp] theorem nibHi_ofNat (n : Nat) : nibHi (BitVec.ofNat 8 n) = BitVec.ofNat 4 (n / 16) := by
  apply BitVec.eq_of_toNat_eq
  simp only [nibHi, BitVec.extractLsb'_toNat, BitVec.toNat_ofNat, Nat.shiftRight_eq_div_pow]
  omega
@[simp] theorem nibHi_packImm3 (n : BitVec 4) (d : BitVec 3) : nibHi (packImm3 n d) = n := by
  revert n d; decide
@[simp] theorem lo3_packImm3 (n : BitVec 4) (d : BitVec 3) : lo3 (packImm3 n d) = d := by
  revert n d; decide
@[simp] theorem packImm3_bit3 (n : BitVec 4) (d : BitVec 3) : (packImm3 n d)[3] = false := by
  revert n d; decide
@[simp] theorem nibHi_packInd (n : BitVec 4) (i : BitVec 2) : nibHi (packInd n i) = n := by
  revert n i; decide
@[simp] theorem lo2_packInd (n : BitVec 4) (i : BitVec 2) : lo2 (packInd n i) = i := by
  revert n i; decide
@[simp] theorem packInd_bit3 (n : BitVec 4) (i : BitVec 2) : (packInd n i)[3] = true := by
  revert n i; decide
@[simp] theorem packInd_bit2 (n : BitVec 4) (i : BitVec 2) : (packInd n i)[2] = false := by
  revert n i; decide
@[simp] theorem nibHi_packInc (n : BitVec 4) (i : BitVec 2) : nibHi (packInc n i) = n := by
  revert n i; decide
@[simp] theorem lo2_packInc (n : BitVec 4) (i : BitVec 2) : lo2 (packInc n i) = i := by
  revert n i; decide
@[simp] theorem packInc_bit3 (n : BitVec 4) (i : BitVec 2) : (packInc n i)[3] = true := by
  revert n i; decide
@[simp] theorem packInc_bit2 (n : BitVec 4) (i : BitVec 2) : (packInc n i)[2] = true := by
  revert n i; decide
@[simp] theorem subOp_packExt (a k : BitVec 2) (m : BitVec 4) : subOp (packExt a k m) = a := by
  revert a k m; decide
@[simp] theorem seqBits_packExt (a k : BitVec 2) (m : BitVec 4) : seqBits (packExt a k m) = k := by
  revert a k m; decide
@[simp] theorem nibLo_packExt (a k : BitVec 2) (m : BitVec 4) : nibLo (packExt a k m) = m := by
  revert a k m; decide
@[simp] theorem hi7_packTrap (t : BitVec 7) : hi7 (packTrap t) = t := by
  revert t; decide
@[simp] theorem bit0_packTrap (t : BitVec 7) : bit0 (packTrap t) = false := by
  revert t; decide
@[simp] theorem condOf_condCode (cc : Cond) : condOf (condCode cc) = cc := by
  cases cc <;> rfl
@[simp] theorem condCode_condOf (c : BitVec 4) : condCode (condOf c) = c := by
  revert c; decide
@[simp] theorem joinBytes_hiByte_loByte (w : Word) : joinBytes (hiByte w) (loByte w) = w := Machine.joinBytes_hi_lo w
@[simp] theorem joinPage_pageHi_pageLo (p : PageNum) : joinPage (pageHi p) (pageLo p) = p := by
  revert p; decide
@[simp] theorem hi6_pageHi (p : PageNum) : hi6 (pageHi p) = 0#6 := by
  revert p; decide

end Sys2Proof
end

