-- ==== Sys2Proof/Laws/PerInstr.lean ====
section
/-!
SUPPORT. The families of statements made per instruction. `EncodedLength`: the encoder writes as many bytes as the first
of them says (30_encoding.md R117, 20_memory.md R80).
-/

namespace Sys2Proof.Laws

/-- The encoding of an instruction has the length that its first byte says. -/
def EncodedLength.Statement (i : Instr) : Prop :=
  ∃ b0 rest, encode i = b0 :: rest ∧ (encode i).length = instrLength b0

/-- A one-word encoding whose opcode is the low nibble of its first byte. -/
theorem instrLength_packNib_jmpr (c : BitVec 4) : instrLength (packNib c 0xd#4) = 2 := by
  revert c
  decide

theorem instrLength_packNib_bclr (q : BitVec 4) : instrLength (packNib q 0xe#4) = 2 := by
  revert q
  decide

theorem instrLength_packNib_bset (q : BitVec 4) : instrLength (packNib q 0xf#4) = 2 := by
  revert q
  decide

theorem EncodedLength.addRwRw (n : RegNum) (m : RegNum) : EncodedLength.Statement (.addRwRw n m) := ⟨_, _, rfl, rfl⟩
theorem EncodedLength.addRegMem (r : ShortReg) (a : Word) : EncodedLength.Statement (.addRegMem r a) :=
  ⟨_, _, rfl, rfl⟩
theorem EncodedLength.addMemReg (a : Word) (r : ShortReg) : EncodedLength.Statement (.addMemReg a r) :=
  ⟨_, _, rfl, rfl⟩
theorem EncodedLength.addRegImm (r : ShortReg) (d : Word) : EncodedLength.Statement (.addRegImm r d) :=
  ⟨_, _, rfl, rfl⟩
theorem EncodedLength.addRwImm3 (n : RegNum) (d : BitVec 3) : EncodedLength.Statement (.addRwImm3 n d) :=
  ⟨_, _, rfl, rfl⟩
theorem EncodedLength.addRwInd (n : RegNum) (i : PtrNum) : EncodedLength.Statement (.addRwInd n i) := ⟨_, _, rfl, rfl⟩
theorem EncodedLength.addRwInc (n : RegNum) (i : PtrNum) : EncodedLength.Statement (.addRwInc n i) := ⟨_, _, rfl, rfl⟩
theorem EncodedLength.addbRbRb (n : RegNum) (m : RegNum) : EncodedLength.Statement (.addbRbRb n m) := ⟨_, _, rfl, rfl⟩
theorem EncodedLength.addbRegMem (r : ShortReg) (a : Word) : EncodedLength.Statement (.addbRegMem r a) :=
  ⟨_, _, rfl, rfl⟩
theorem EncodedLength.addbMemReg (a : Word) (r : ShortReg) : EncodedLength.Statement (.addbMemReg a r) :=
  ⟨_, _, rfl, rfl⟩
theorem EncodedLength.addbRegImm (r : ShortReg) (d : Word) : EncodedLength.Statement (.addbRegImm r d) :=
  ⟨_, _, rfl, rfl⟩
theorem EncodedLength.addbRbImm3 (n : RegNum) (d : BitVec 3) : EncodedLength.Statement (.addbRbImm3 n d) :=
  ⟨_, _, rfl, rfl⟩
theorem EncodedLength.addbRbInd (n : RegNum) (i : PtrNum) : EncodedLength.Statement (.addbRbInd n i) :=
  ⟨_, _, rfl, rfl⟩
theorem EncodedLength.addbRbInc (n : RegNum) (i : PtrNum) : EncodedLength.Statement (.addbRbInc n i) :=
  ⟨_, _, rfl, rfl⟩
theorem EncodedLength.addcRwRw (n : RegNum) (m : RegNum) : EncodedLength.Statement (.addcRwRw n m) := ⟨_, _, rfl, rfl⟩
theorem EncodedLength.addcRegMem (r : ShortReg) (a : Word) : EncodedLength.Statement (.addcRegMem r a) :=
  ⟨_, _, rfl, rfl⟩
theorem EncodedLength.addcMemReg (a : Word) (r : ShortReg) : EncodedLength.Statement (.addcMemReg a r) :=
  ⟨_, _, rfl, rfl⟩
theorem EncodedLength.addcRegImm (r : ShortReg) (d : Word) : EncodedLength.Statement (.addcRegImm r d) :=
  ⟨_, _, rfl, rfl⟩
theorem EncodedLength.addcRwImm3 (n : RegNum) (d : BitVec 3) : EncodedLength.Statement (.addcRwImm3 n d) :=
  ⟨_, _, rfl, rfl⟩
theorem EncodedLength.addcRwInd (n : RegNum) (i : PtrNum) : EncodedLength.Statement (.addcRwInd n i) :=
  ⟨_, _, rfl, rfl⟩
theorem EncodedLength.addcRwInc (n : RegNum) (i : PtrNum) : EncodedLength.Statement (.addcRwInc n i) :=
  ⟨_, _, rfl, rfl⟩
theorem EncodedLength.addcbRbRb (n : RegNum) (m : RegNum) : EncodedLength.Statement (.addcbRbRb n m) :=
  ⟨_, _, rfl, rfl⟩
theorem EncodedLength.addcbRegMem (r : ShortReg) (a : Word) : EncodedLength.Statement (.addcbRegMem r a) :=
  ⟨_, _, rfl, rfl⟩
theorem EncodedLength.addcbMemReg (a : Word) (r : ShortReg) : EncodedLength.Statement (.addcbMemReg a r) :=
  ⟨_, _, rfl, rfl⟩
theorem EncodedLength.addcbRegImm (r : ShortReg) (d : Word) : EncodedLength.Statement (.addcbRegImm r d) :=
  ⟨_, _, rfl, rfl⟩
theorem EncodedLength.addcbRbImm3 (n : RegNum) (d : BitVec 3) : EncodedLength.Statement (.addcbRbImm3 n d) :=
  ⟨_, _, rfl, rfl⟩
theorem EncodedLength.addcbRbInd (n : RegNum) (i : PtrNum) : EncodedLength.Statement (.addcbRbInd n i) :=
  ⟨_, _, rfl, rfl⟩
theorem EncodedLength.addcbRbInc (n : RegNum) (i : PtrNum) : EncodedLength.Statement (.addcbRbInc n i) :=
  ⟨_, _, rfl, rfl⟩
theorem EncodedLength.subRwRw (n : RegNum) (m : RegNum) : EncodedLength.Statement (.subRwRw n m) := ⟨_, _, rfl, rfl⟩
theorem EncodedLength.subRegMem (r : ShortReg) (a : Word) : EncodedLength.Statement (.subRegMem r a) :=
  ⟨_, _, rfl, rfl⟩
theorem EncodedLength.subMemReg (a : Word) (r : ShortReg) : EncodedLength.Statement (.subMemReg a r) :=
  ⟨_, _, rfl, rfl⟩
theorem EncodedLength.subRegImm (r : ShortReg) (d : Word) : EncodedLength.Statement (.subRegImm r d) :=
  ⟨_, _, rfl, rfl⟩
theorem EncodedLength.subRwImm3 (n : RegNum) (d : BitVec 3) : EncodedLength.Statement (.subRwImm3 n d) :=
  ⟨_, _, rfl, rfl⟩
theorem EncodedLength.subRwInd (n : RegNum) (i : PtrNum) : EncodedLength.Statement (.subRwInd n i) := ⟨_, _, rfl, rfl⟩
theorem EncodedLength.subRwInc (n : RegNum) (i : PtrNum) : EncodedLength.Statement (.subRwInc n i) := ⟨_, _, rfl, rfl⟩
theorem EncodedLength.subbRbRb (n : RegNum) (m : RegNum) : EncodedLength.Statement (.subbRbRb n m) := ⟨_, _, rfl, rfl⟩
theorem EncodedLength.subbRegMem (r : ShortReg) (a : Word) : EncodedLength.Statement (.subbRegMem r a) :=
  ⟨_, _, rfl, rfl⟩
theorem EncodedLength.subbMemReg (a : Word) (r : ShortReg) : EncodedLength.Statement (.subbMemReg a r) :=
  ⟨_, _, rfl, rfl⟩
theorem EncodedLength.subbRegImm (r : ShortReg) (d : Word) : EncodedLength.Statement (.subbRegImm r d) :=
  ⟨_, _, rfl, rfl⟩
theorem EncodedLength.subbRbImm3 (n : RegNum) (d : BitVec 3) : EncodedLength.Statement (.subbRbImm3 n d) :=
  ⟨_, _, rfl, rfl⟩
theorem EncodedLength.subbRbInd (n : RegNum) (i : PtrNum) : EncodedLength.Statement (.subbRbInd n i) :=
  ⟨_, _, rfl, rfl⟩
theorem EncodedLength.subbRbInc (n : RegNum) (i : PtrNum) : EncodedLength.Statement (.subbRbInc n i) :=
  ⟨_, _, rfl, rfl⟩
theorem EncodedLength.subcRwRw (n : RegNum) (m : RegNum) : EncodedLength.Statement (.subcRwRw n m) := ⟨_, _, rfl, rfl⟩
theorem EncodedLength.subcRegMem (r : ShortReg) (a : Word) : EncodedLength.Statement (.subcRegMem r a) :=
  ⟨_, _, rfl, rfl⟩
theorem EncodedLength.subcMemReg (a : Word) (r : ShortReg) : EncodedLength.Statement (.subcMemReg a r) :=
  ⟨_, _, rfl, rfl⟩
theorem EncodedLength.subcRegImm (r : ShortReg) (d : Word) : EncodedLength.Statement (.subcRegImm r d) :=
  ⟨_, _, rfl, rfl⟩
theorem EncodedLength.subcRwImm3 (n : RegNum) (d : BitVec 3) : EncodedLength.Statement (.subcRwImm3 n d) :=
  ⟨_, _, rfl, rfl⟩
theorem EncodedLength.subcRwInd (n : RegNum) (i : PtrNum) : EncodedLength.Statement (.subcRwInd n i) :=
  ⟨_, _, rfl, rfl⟩
theorem EncodedLength.subcRwInc (n : RegNum) (i : PtrNum) : EncodedLength.Statement (.subcRwInc n i) :=
  ⟨_, _, rfl, rfl⟩
theorem EncodedLength.subcbRbRb (n : RegNum) (m : RegNum) : EncodedLength.Statement (.subcbRbRb n m) :=
  ⟨_, _, rfl, rfl⟩
theorem EncodedLength.subcbRegMem (r : ShortReg) (a : Word) : EncodedLength.Statement (.subcbRegMem r a) :=
  ⟨_, _, rfl, rfl⟩
theorem EncodedLength.subcbMemReg (a : Word) (r : ShortReg) : EncodedLength.Statement (.subcbMemReg a r) :=
  ⟨_, _, rfl, rfl⟩
theorem EncodedLength.subcbRegImm (r : ShortReg) (d : Word) : EncodedLength.Statement (.subcbRegImm r d) :=
  ⟨_, _, rfl, rfl⟩
theorem EncodedLength.subcbRbImm3 (n : RegNum) (d : BitVec 3) : EncodedLength.Statement (.subcbRbImm3 n d) :=
  ⟨_, _, rfl, rfl⟩
theorem EncodedLength.subcbRbInd (n : RegNum) (i : PtrNum) : EncodedLength.Statement (.subcbRbInd n i) :=
  ⟨_, _, rfl, rfl⟩
theorem EncodedLength.subcbRbInc (n : RegNum) (i : PtrNum) : EncodedLength.Statement (.subcbRbInc n i) :=
  ⟨_, _, rfl, rfl⟩
theorem EncodedLength.cmpRwRw (n : RegNum) (m : RegNum) : EncodedLength.Statement (.cmpRwRw n m) := ⟨_, _, rfl, rfl⟩
theorem EncodedLength.cmpRegMem (r : ShortReg) (a : Word) : EncodedLength.Statement (.cmpRegMem r a) :=
  ⟨_, _, rfl, rfl⟩
theorem EncodedLength.cmpRegImm (r : ShortReg) (d : Word) : EncodedLength.Statement (.cmpRegImm r d) :=
  ⟨_, _, rfl, rfl⟩
theorem EncodedLength.cmpRwImm3 (n : RegNum) (d : BitVec 3) : EncodedLength.Statement (.cmpRwImm3 n d) :=
  ⟨_, _, rfl, rfl⟩
theorem EncodedLength.cmpRwInd (n : RegNum) (i : PtrNum) : EncodedLength.Statement (.cmpRwInd n i) := ⟨_, _, rfl, rfl⟩
theorem EncodedLength.cmpRwInc (n : RegNum) (i : PtrNum) : EncodedLength.Statement (.cmpRwInc n i) := ⟨_, _, rfl, rfl⟩
theorem EncodedLength.cmpbRbRb (n : RegNum) (m : RegNum) : EncodedLength.Statement (.cmpbRbRb n m) := ⟨_, _, rfl, rfl⟩
theorem EncodedLength.cmpbRegMem (r : ShortReg) (a : Word) : EncodedLength.Statement (.cmpbRegMem r a) :=
  ⟨_, _, rfl, rfl⟩
theorem EncodedLength.cmpbRegImm (r : ShortReg) (d : Word) : EncodedLength.Statement (.cmpbRegImm r d) :=
  ⟨_, _, rfl, rfl⟩
theorem EncodedLength.cmpbRbImm3 (n : RegNum) (d : BitVec 3) : EncodedLength.Statement (.cmpbRbImm3 n d) :=
  ⟨_, _, rfl, rfl⟩
theorem EncodedLength.cmpbRbInd (n : RegNum) (i : PtrNum) : EncodedLength.Statement (.cmpbRbInd n i) :=
  ⟨_, _, rfl, rfl⟩
theorem EncodedLength.cmpbRbInc (n : RegNum) (i : PtrNum) : EncodedLength.Statement (.cmpbRbInc n i) :=
  ⟨_, _, rfl, rfl⟩
theorem EncodedLength.xorRwRw (n : RegNum) (m : RegNum) : EncodedLength.Statement (.xorRwRw n m) := ⟨_, _, rfl, rfl⟩
theorem EncodedLength.xorRegMem (r : ShortReg) (a : Word) : EncodedLength.Statement (.xorRegMem r a) :=
  ⟨_, _, rfl, rfl⟩
theorem EncodedLength.xorMemReg (a : Word) (r : ShortReg) : EncodedLength.Statement (.xorMemReg a r) :=
  ⟨_, _, rfl, rfl⟩
theorem EncodedLength.xorRegImm (r : ShortReg) (d : Word) : EncodedLength.Statement (.xorRegImm r d) :=
  ⟨_, _, rfl, rfl⟩
theorem EncodedLength.xorRwImm3 (n : RegNum) (d : BitVec 3) : EncodedLength.Statement (.xorRwImm3 n d) :=
  ⟨_, _, rfl, rfl⟩
theorem EncodedLength.xorRwInd (n : RegNum) (i : PtrNum) : EncodedLength.Statement (.xorRwInd n i) := ⟨_, _, rfl, rfl⟩
theorem EncodedLength.xorRwInc (n : RegNum) (i : PtrNum) : EncodedLength.Statement (.xorRwInc n i) := ⟨_, _, rfl, rfl⟩
theorem EncodedLength.xorbRbRb (n : RegNum) (m : RegNum) : EncodedLength.Statement (.xorbRbRb n m) := ⟨_, _, rfl, rfl⟩
theorem EncodedLength.xorbRegMem (r : ShortReg) (a : Word) : EncodedLength.Statement (.xorbRegMem r a) :=
  ⟨_, _, rfl, rfl⟩
theorem EncodedLength.xorbMemReg (a : Word) (r : ShortReg) : EncodedLength.Statement (.xorbMemReg a r) :=
  ⟨_, _, rfl, rfl⟩
theorem EncodedLength.xorbRegImm (r : ShortReg) (d : Word) : EncodedLength.Statement (.xorbRegImm r d) :=
  ⟨_, _, rfl, rfl⟩
theorem EncodedLength.xorbRbImm3 (n : RegNum) (d : BitVec 3) : EncodedLength.Statement (.xorbRbImm3 n d) :=
  ⟨_, _, rfl, rfl⟩
theorem EncodedLength.xorbRbInd (n : RegNum) (i : PtrNum) : EncodedLength.Statement (.xorbRbInd n i) :=
  ⟨_, _, rfl, rfl⟩
theorem EncodedLength.xorbRbInc (n : RegNum) (i : PtrNum) : EncodedLength.Statement (.xorbRbInc n i) :=
  ⟨_, _, rfl, rfl⟩
theorem EncodedLength.andRwRw (n : RegNum) (m : RegNum) : EncodedLength.Statement (.andRwRw n m) := ⟨_, _, rfl, rfl⟩
theorem EncodedLength.andRegMem (r : ShortReg) (a : Word) : EncodedLength.Statement (.andRegMem r a) :=
  ⟨_, _, rfl, rfl⟩
theorem EncodedLength.andMemReg (a : Word) (r : ShortReg) : EncodedLength.Statement (.andMemReg a r) :=
  ⟨_, _, rfl, rfl⟩
theorem EncodedLength.andRegImm (r : ShortReg) (d : Word) : EncodedLength.Statement (.andRegImm r d) :=
  ⟨_, _, rfl, rfl⟩
theorem EncodedLength.andRwImm3 (n : RegNum) (d : BitVec 3) : EncodedLength.Statement (.andRwImm3 n d) :=
  ⟨_, _, rfl, rfl⟩
theorem EncodedLength.andRwInd (n : RegNum) (i : PtrNum) : EncodedLength.Statement (.andRwInd n i) := ⟨_, _, rfl, rfl⟩
theorem EncodedLength.andRwInc (n : RegNum) (i : PtrNum) : EncodedLength.Statement (.andRwInc n i) := ⟨_, _, rfl, rfl⟩
theorem EncodedLength.andbRbRb (n : RegNum) (m : RegNum) : EncodedLength.Statement (.andbRbRb n m) := ⟨_, _, rfl, rfl⟩
theorem EncodedLength.andbRegMem (r : ShortReg) (a : Word) : EncodedLength.Statement (.andbRegMem r a) :=
  ⟨_, _, rfl, rfl⟩
theorem EncodedLength.andbMemReg (a : Word) (r : ShortReg) : EncodedLength.Statement (.andbMemReg a r) :=
  ⟨_, _, rfl, rfl⟩
theorem EncodedLength.andbRegImm (r : ShortReg) (d : Word) : EncodedLength.Statement (.andbRegImm r d) :=
  ⟨_, _, rfl, rfl⟩
theorem EncodedLength.andbRbImm3 (n : RegNum) (d : BitVec 3) : EncodedLength.Statement (.andbRbImm3 n d) :=
  ⟨_, _, rfl, rfl⟩
theorem EncodedLength.andbRbInd (n : RegNum) (i : PtrNum) : EncodedLength.Statement (.andbRbInd n i) :=
  ⟨_, _, rfl, rfl⟩
theorem EncodedLength.andbRbInc (n : RegNum) (i : PtrNum) : EncodedLength.Statement (.andbRbInc n i) :=
  ⟨_, _, rfl, rfl⟩
theorem EncodedLength.orRwRw (n : RegNum) (m : RegNum) : EncodedLength.Statement (.orRwRw n m) := ⟨_, _, rfl, rfl⟩
theorem EncodedLength.orRegMem (r : ShortReg) (a : Word) : EncodedLength.Statement (.orRegMem r a) := ⟨_, _, rfl, rfl⟩
theorem EncodedLength.orMemReg (a : Word) (r : ShortReg) : EncodedLength.Statement (.orMemReg a r) := ⟨_, _, rfl, rfl⟩
theorem EncodedLength.orRegImm (r : ShortReg) (d : Word) : EncodedLength.Statement (.orRegImm r d) := ⟨_, _, rfl, rfl⟩
theorem EncodedLength.orRwImm3 (n : RegNum) (d : BitVec 3) : EncodedLength.Statement (.orRwImm3 n d) :=
  ⟨_, _, rfl, rfl⟩
theorem EncodedLength.orRwInd (n : RegNum) (i : PtrNum) : EncodedLength.Statement (.orRwInd n i) := ⟨_, _, rfl, rfl⟩
theorem EncodedLength.orRwInc (n : RegNum) (i : PtrNum) : EncodedLength.Statement (.orRwInc n i) := ⟨_, _, rfl, rfl⟩
theorem EncodedLength.orbRbRb (n : RegNum) (m : RegNum) : EncodedLength.Statement (.orbRbRb n m) := ⟨_, _, rfl, rfl⟩
theorem EncodedLength.orbRegMem (r : ShortReg) (a : Word) : EncodedLength.Statement (.orbRegMem r a) :=
  ⟨_, _, rfl, rfl⟩
theorem EncodedLength.orbMemReg (a : Word) (r : ShortReg) : EncodedLength.Statement (.orbMemReg a r) :=
  ⟨_, _, rfl, rfl⟩
theorem EncodedLength.orbRegImm (r : ShortReg) (d : Word) : EncodedLength.Statement (.orbRegImm r d) :=
  ⟨_, _, rfl, rfl⟩
theorem EncodedLength.orbRbImm3 (n : RegNum) (d : BitVec 3) : EncodedLength.Statement (.orbRbImm3 n d) :=
  ⟨_, _, rfl, rfl⟩
theorem EncodedLength.orbRbInd (n : RegNum) (i : PtrNum) : EncodedLength.Statement (.orbRbInd n i) := ⟨_, _, rfl, rfl⟩
theorem EncodedLength.orbRbInc (n : RegNum) (i : PtrNum) : EncodedLength.Statement (.orbRbInc n i) := ⟨_, _, rfl, rfl⟩
theorem EncodedLength.bfldl (q : BitOff) (mask : Byte) (d : Byte) : EncodedLength.Statement (.bfldl q mask d) :=
  ⟨_, _, rfl, rfl⟩
theorem EncodedLength.bfldh (q : BitOff) (mask : Byte) (d : Byte) : EncodedLength.Statement (.bfldh q mask d) :=
  ⟨_, _, rfl, rfl⟩
theorem EncodedLength.bcmp (zz : BitOff) (z : BitPos) (qq : BitOff) (q : BitPos) : EncodedLength.Statement (.bcmp zz z qq q) :=
  ⟨_, _, rfl, rfl⟩
theorem EncodedLength.bmovn (zz : BitOff) (z : BitPos) (qq : BitOff) (q : BitPos) : EncodedLength.Statement (.bmovn zz z qq q) :=
  ⟨_, _, rfl, rfl⟩
theorem EncodedLength.bmov (zz : BitOff) (z : BitPos) (qq : BitOff) (q : BitPos) : EncodedLength.Statement (.bmov zz z qq q) :=
  ⟨_, _, rfl, rfl⟩
theorem EncodedLength.bor (zz : BitOff) (z : BitPos) (qq : BitOff) (q : BitPos) : EncodedLength.Statement (.bor zz z qq q) :=
  ⟨_, _, rfl, rfl⟩
theorem EncodedLength.band (zz : BitOff) (z : BitPos) (qq : BitOff) (q : BitPos) : EncodedLength.Statement (.band zz z qq q) :=
  ⟨_, _, rfl, rfl⟩
theorem EncodedLength.bxor (zz : BitOff) (z : BitPos) (qq : BitOff) (q : BitPos) : EncodedLength.Statement (.bxor zz z qq q) :=
  ⟨_, _, rfl, rfl⟩
theorem EncodedLength.jb (qq : BitOff) (q : BitPos) (rel : Rel) : EncodedLength.Statement (.jb qq q rel) :=
  ⟨_, _, rfl, rfl⟩
theorem EncodedLength.jnb (qq : BitOff) (q : BitPos) (rel : Rel) : EncodedLength.Statement (.jnb qq q rel) :=
  ⟨_, _, rfl, rfl⟩
theorem EncodedLength.jbc (qq : BitOff) (q : BitPos) (rel : Rel) : EncodedLength.Statement (.jbc qq q rel) :=
  ⟨_, _, rfl, rfl⟩
theorem EncodedLength.jnbs (qq : BitOff) (q : BitPos) (rel : Rel) : EncodedLength.Statement (.jnbs qq q rel) :=
  ⟨_, _, rfl, rfl⟩
theorem EncodedLength.calla (cc : Cond) (a : Word) : EncodedLength.Statement (.calla cc a) := ⟨_, _, rfl, rfl⟩
theorem EncodedLength.calls (seg : SegNum) (a : Word) : EncodedLength.Statement (.calls seg a) := ⟨_, _, rfl, rfl⟩
theorem EncodedLength.jmpa (cc : Cond) (a : Word) : EncodedLength.Statement (.jmpa cc a) := ⟨_, _, rfl, rfl⟩
theorem EncodedLength.jmps (seg : SegNum) (a : Word) : EncodedLength.Statement (.jmps seg a) := ⟨_, _, rfl, rfl⟩
theorem EncodedLength.mul (n : RegNum) (m : RegNum) : EncodedLength.Statement (.mul n m) := ⟨_, _, rfl, rfl⟩
theorem EncodedLength.mulu (n : RegNum) (m : RegNum) : EncodedLength.Statement (.mulu n m) := ⟨_, _, rfl, rfl⟩
theorem EncodedLength.prior (n : RegNum) (m : RegNum) : EncodedLength.Statement (.prior n m) := ⟨_, _, rfl, rfl⟩
theorem EncodedLength.div (n : RegNum) : EncodedLength.Statement (.div n) := ⟨_, _, rfl, rfl⟩
theorem EncodedLength.divu (n : RegNum) : EncodedLength.Statement (.divu n) := ⟨_, _, rfl, rfl⟩
theorem EncodedLength.divl (n : RegNum) : EncodedLength.Statement (.divl n) := ⟨_, _, rfl, rfl⟩
theorem EncodedLength.divlu (n : RegNum) : EncodedLength.Statement (.divlu n) := ⟨_, _, rfl, rfl⟩
theorem EncodedLength.trap (t : TrapNum) : EncodedLength.Statement (.trap t) := ⟨_, _, rfl, rfl⟩
theorem EncodedLength.calli (cc : Cond) (n : RegNum) : EncodedLength.Statement (.calli cc n) := ⟨_, _, rfl, rfl⟩
theorem EncodedLength.callr (rel : Rel) : EncodedLength.Statement (.callr rel) := ⟨_, _, rfl, rfl⟩
theorem EncodedLength.ret : EncodedLength.Statement .ret := ⟨_, _, rfl, rfl⟩
theorem EncodedLength.rets : EncodedLength.Statement .rets := ⟨_, _, rfl, rfl⟩
theorem EncodedLength.retp (r : ShortReg) : EncodedLength.Statement (.retp r) := ⟨_, _, rfl, rfl⟩
theorem EncodedLength.reti : EncodedLength.Statement .reti := ⟨_, _, rfl, rfl⟩
theorem EncodedLength.rolRwRw (n : RegNum) (m : RegNum) : EncodedLength.Statement (.rolRwRw n m) := ⟨_, _, rfl, rfl⟩
theorem EncodedLength.rolRwImm4 (n : RegNum) (d : BitVec 4) : EncodedLength.Statement (.rolRwImm4 n d) :=
  ⟨_, _, rfl, rfl⟩
theorem EncodedLength.rorRwRw (n : RegNum) (m : RegNum) : EncodedLength.Statement (.rorRwRw n m) := ⟨_, _, rfl, rfl⟩
theorem EncodedLength.rorRwImm4 (n : RegNum) (d : BitVec 4) : EncodedLength.Statement (.rorRwImm4 n d) :=
  ⟨_, _, rfl, rfl⟩
theorem EncodedLength.shlRwRw (n : RegNum) (m : RegNum) : EncodedLength.Statement (.shlRwRw n m) := ⟨_, _, rfl, rfl⟩
theorem EncodedLength.shlRwImm4 (n : RegNum) (d : BitVec 4) : EncodedLength.Statement (.shlRwImm4 n d) :=
  ⟨_, _, rfl, rfl⟩
theorem EncodedLength.shrRwRw (n : RegNum) (m : RegNum) : EncodedLength.Statement (.shrRwRw n m) := ⟨_, _, rfl, rfl⟩
theorem EncodedLength.shrRwImm4 (n : RegNum) (d : BitVec 4) : EncodedLength.Statement (.shrRwImm4 n d) :=
  ⟨_, _, rfl, rfl⟩
theorem EncodedLength.ashrRwRw (n : RegNum) (m : RegNum) : EncodedLength.Statement (.ashrRwRw n m) := ⟨_, _, rfl, rfl⟩
theorem EncodedLength.ashrRwImm4 (n : RegNum) (d : BitVec 4) : EncodedLength.Statement (.ashrRwImm4 n d) :=
  ⟨_, _, rfl, rfl⟩
theorem EncodedLength.jmpi (cc : Cond) (n : RegNum) : EncodedLength.Statement (.jmpi cc n) := ⟨_, _, rfl, rfl⟩
theorem EncodedLength.nop : EncodedLength.Statement .nop := ⟨_, _, rfl, rfl⟩
theorem EncodedLength.push (r : ShortReg) : EncodedLength.Statement (.push r) := ⟨_, _, rfl, rfl⟩
theorem EncodedLength.pop (r : ShortReg) : EncodedLength.Statement (.pop r) := ⟨_, _, rfl, rfl⟩
theorem EncodedLength.jmpr (cc : Cond) (rel : Rel) : EncodedLength.Statement (.jmpr cc rel) :=
  ⟨_, _, rfl, (instrLength_packNib_jmpr _).symm⟩
theorem EncodedLength.bclr (qq : BitOff) (q : BitPos) : EncodedLength.Statement (.bclr qq q) :=
  ⟨_, _, rfl, (instrLength_packNib_bclr _).symm⟩
theorem EncodedLength.bset (qq : BitOff) (q : BitPos) : EncodedLength.Statement (.bset qq q) :=
  ⟨_, _, rfl, (instrLength_packNib_bset _).symm⟩
theorem EncodedLength.cmpi1RwImm4 (n : RegNum) (d : BitVec 4) : EncodedLength.Statement (.cmpi1RwImm4 n d) :=
  ⟨_, _, rfl, rfl⟩
theorem EncodedLength.cmpi1RwMem (n : RegNum) (a : Word) : EncodedLength.Statement (.cmpi1RwMem n a) :=
  ⟨_, _, rfl, rfl⟩
theorem EncodedLength.cmpi1RwImm16 (n : RegNum) (d : Word) : EncodedLength.Statement (.cmpi1RwImm16 n d) :=
  ⟨_, _, rfl, rfl⟩
theorem EncodedLength.cmpi2RwImm4 (n : RegNum) (d : BitVec 4) : EncodedLength.Statement (.cmpi2RwImm4 n d) :=
  ⟨_, _, rfl, rfl⟩
theorem EncodedLength.cmpi2RwMem (n : RegNum) (a : Word) : EncodedLength.Statement (.cmpi2RwMem n a) :=
  ⟨_, _, rfl, rfl⟩
theorem EncodedLength.cmpi2RwImm16 (n : RegNum) (d : Word) : EncodedLength.Statement (.cmpi2RwImm16 n d) :=
  ⟨_, _, rfl, rfl⟩
theorem EncodedLength.cmpd1RwImm4 (n : RegNum) (d : BitVec 4) : EncodedLength.Statement (.cmpd1RwImm4 n d) :=
  ⟨_, _, rfl, rfl⟩
theorem EncodedLength.cmpd1RwMem (n : RegNum) (a : Word) : EncodedLength.Statement (.cmpd1RwMem n a) :=
  ⟨_, _, rfl, rfl⟩
theorem EncodedLength.cmpd1RwImm16 (n : RegNum) (d : Word) : EncodedLength.Statement (.cmpd1RwImm16 n d) :=
  ⟨_, _, rfl, rfl⟩
theorem EncodedLength.cmpd2RwImm4 (n : RegNum) (d : BitVec 4) : EncodedLength.Statement (.cmpd2RwImm4 n d) :=
  ⟨_, _, rfl, rfl⟩
theorem EncodedLength.cmpd2RwMem (n : RegNum) (a : Word) : EncodedLength.Statement (.cmpd2RwMem n a) :=
  ⟨_, _, rfl, rfl⟩
theorem EncodedLength.cmpd2RwImm16 (n : RegNum) (d : Word) : EncodedLength.Statement (.cmpd2RwImm16 n d) :=
  ⟨_, _, rfl, rfl⟩
theorem EncodedLength.neg (n : RegNum) : EncodedLength.Statement (.neg n) := ⟨_, _, rfl, rfl⟩
theorem EncodedLength.cpl (n : RegNum) : EncodedLength.Statement (.cpl n) := ⟨_, _, rfl, rfl⟩
theorem EncodedLength.negb (n : RegNum) : EncodedLength.Statement (.negb n) := ⟨_, _, rfl, rfl⟩
theorem EncodedLength.cplb (n : RegNum) : EncodedLength.Statement (.cplb n) := ⟨_, _, rfl, rfl⟩
theorem EncodedLength.coxxx83 : EncodedLength.Statement .coxxx83 := ⟨_, _, rfl, rfl⟩
theorem EncodedLength.coxxx93 : EncodedLength.Statement .coxxx93 := ⟨_, _, rfl, rfl⟩
theorem EncodedLength.coxxxA3 : EncodedLength.Statement .coxxxA3 := ⟨_, _, rfl, rfl⟩
theorem EncodedLength.costoreB3 : EncodedLength.Statement .costoreB3 := ⟨_, _, rfl, rfl⟩
theorem EncodedLength.costoreC3 : EncodedLength.Statement .costoreC3 := ⟨_, _, rfl, rfl⟩
theorem EncodedLength.comovD3 : EncodedLength.Statement .comovD3 := ⟨_, _, rfl, rfl⟩
theorem EncodedLength.movIndMem (n : RegNum) (a : Word) : EncodedLength.Statement (.movIndMem n a) := ⟨_, _, rfl, rfl⟩
theorem EncodedLength.movMemInd (a : Word) (n : RegNum) : EncodedLength.Statement (.movMemInd a n) := ⟨_, _, rfl, rfl⟩
theorem EncodedLength.movbIndMem (n : RegNum) (a : Word) : EncodedLength.Statement (.movbIndMem n a) :=
  ⟨_, _, rfl, rfl⟩
theorem EncodedLength.movbMemInd (a : Word) (n : RegNum) : EncodedLength.Statement (.movbMemInd a n) :=
  ⟨_, _, rfl, rfl⟩
theorem EncodedLength.idle : EncodedLength.Statement .idle := ⟨_, _, rfl, rfl⟩
theorem EncodedLength.protFault87 (b1 : Byte) (b2 : Byte) (b3 : Byte) : EncodedLength.Statement (.protFault87 b1 b2 b3) :=
  ⟨_, _, rfl, rfl⟩
theorem EncodedLength.pwrdn : EncodedLength.Statement .pwrdn := ⟨_, _, rfl, rfl⟩
theorem EncodedLength.protFault97 (b1 : Byte) (b2 : Byte) (b3 : Byte) : EncodedLength.Statement (.protFault97 b1 b2 b3) :=
  ⟨_, _, rfl, rfl⟩
theorem EncodedLength.srvwdt : EncodedLength.Statement .srvwdt := ⟨_, _, rfl, rfl⟩
theorem EncodedLength.protFaultA7 (b1 : Byte) (b2 : Byte) (b3 : Byte) : EncodedLength.Statement (.protFaultA7 b1 b2 b3) :=
  ⟨_, _, rfl, rfl⟩
theorem EncodedLength.diswdt : EncodedLength.Statement .diswdt := ⟨_, _, rfl, rfl⟩
theorem EncodedLength.protFaultA5 (b1 : Byte) (b2 : Byte) (b3 : Byte) : EncodedLength.Statement (.protFaultA5 b1 b2 b3) :=
  ⟨_, _, rfl, rfl⟩
theorem EncodedLength.einit : EncodedLength.Statement .einit := ⟨_, _, rfl, rfl⟩
theorem EncodedLength.protFaultB5 (b1 : Byte) (b2 : Byte) (b3 : Byte) : EncodedLength.Statement (.protFaultB5 b1 b2 b3) :=
  ⟨_, _, rfl, rfl⟩
theorem EncodedLength.srst : EncodedLength.Statement .srst := ⟨_, _, rfl, rfl⟩
theorem EncodedLength.protFaultB7 (b1 : Byte) (b2 : Byte) (b3 : Byte) : EncodedLength.Statement (.protFaultB7 b1 b2 b3) :=
  ⟨_, _, rfl, rfl⟩
theorem EncodedLength.movRwInd (n : RegNum) (m : RegNum) : EncodedLength.Statement (.movRwInd n m) := ⟨_, _, rfl, rfl⟩
theorem EncodedLength.movbRbInd (n : RegNum) (m : RegNum) : EncodedLength.Statement (.movbRbInd n m) :=
  ⟨_, _, rfl, rfl⟩
theorem EncodedLength.movRwInc (n : RegNum) (m : RegNum) : EncodedLength.Statement (.movRwInc n m) := ⟨_, _, rfl, rfl⟩
theorem EncodedLength.movbRbInc (n : RegNum) (m : RegNum) : EncodedLength.Statement (.movbRbInc n m) :=
  ⟨_, _, rfl, rfl⟩
theorem EncodedLength.movIndRw (m : RegNum) (n : RegNum) : EncodedLength.Statement (.movIndRw m n) := ⟨_, _, rfl, rfl⟩
theorem EncodedLength.movbIndRb (m : RegNum) (n : RegNum) : EncodedLength.Statement (.movbIndRb m n) :=
  ⟨_, _, rfl, rfl⟩
theorem EncodedLength.movDecRw (m : RegNum) (n : RegNum) : EncodedLength.Statement (.movDecRw m n) := ⟨_, _, rfl, rfl⟩
theorem EncodedLength.movbDecRb (m : RegNum) (n : RegNum) : EncodedLength.Statement (.movbDecRb m n) :=
  ⟨_, _, rfl, rfl⟩
theorem EncodedLength.movIndInd (n : RegNum) (m : RegNum) : EncodedLength.Statement (.movIndInd n m) :=
  ⟨_, _, rfl, rfl⟩
theorem EncodedLength.movbIndInd (n : RegNum) (m : RegNum) : EncodedLength.Statement (.movbIndInd n m) :=
  ⟨_, _, rfl, rfl⟩
theorem EncodedLength.movIncInd (n : RegNum) (m : RegNum) : EncodedLength.Statement (.movIncInd n m) :=
  ⟨_, _, rfl, rfl⟩
theorem EncodedLength.movbIncInd (n : RegNum) (m : RegNum) : EncodedLength.Statement (.movbIncInd n m) :=
  ⟨_, _, rfl, rfl⟩
theorem EncodedLength.movIndInc (n : RegNum) (m : RegNum) : EncodedLength.Statement (.movIndInc n m) :=
  ⟨_, _, rfl, rfl⟩
theorem EncodedLength.movbIndInc (n : RegNum) (m : RegNum) : EncodedLength.Statement (.movbIndInc n m) :=
  ⟨_, _, rfl, rfl⟩
theorem EncodedLength.movbzRwRb (n : RegNum) (m : RegNum) : EncodedLength.Statement (.movbzRwRb n m) :=
  ⟨_, _, rfl, rfl⟩
theorem EncodedLength.movbzRegMem (r : ShortReg) (a : Word) : EncodedLength.Statement (.movbzRegMem r a) :=
  ⟨_, _, rfl, rfl⟩
theorem EncodedLength.movbzMemReg (a : Word) (r : ShortReg) : EncodedLength.Statement (.movbzMemReg a r) :=
  ⟨_, _, rfl, rfl⟩
theorem EncodedLength.movbsRwRb (n : RegNum) (m : RegNum) : EncodedLength.Statement (.movbsRwRb n m) :=
  ⟨_, _, rfl, rfl⟩
theorem EncodedLength.movbsRegMem (r : ShortReg) (a : Word) : EncodedLength.Statement (.movbsRegMem r a) :=
  ⟨_, _, rfl, rfl⟩
theorem EncodedLength.movbsMemReg (a : Word) (r : ShortReg) : EncodedLength.Statement (.movbsMemReg a r) :=
  ⟨_, _, rfl, rfl⟩
theorem EncodedLength.movDispRw (m : RegNum) (d : Word) (n : RegNum) : EncodedLength.Statement (.movDispRw m d n) :=
  ⟨_, _, rfl, rfl⟩
theorem EncodedLength.movRwDisp (n : RegNum) (m : RegNum) (d : Word) : EncodedLength.Statement (.movRwDisp n m d) :=
  ⟨_, _, rfl, rfl⟩
theorem EncodedLength.movbDispRb (m : RegNum) (d : Word) (n : RegNum) : EncodedLength.Statement (.movbDispRb m d n) :=
  ⟨_, _, rfl, rfl⟩
theorem EncodedLength.movbRbDisp (n : RegNum) (m : RegNum) (d : Word) : EncodedLength.Statement (.movbRbDisp n m d) :=
  ⟨_, _, rfl, rfl⟩
theorem EncodedLength.scxtRegImm (r : ShortReg) (d : Word) : EncodedLength.Statement (.scxtRegImm r d) :=
  ⟨_, _, rfl, rfl⟩
theorem EncodedLength.scxtRegMem (r : ShortReg) (a : Word) : EncodedLength.Statement (.scxtRegMem r a) :=
  ⟨_, _, rfl, rfl⟩
theorem EncodedLength.atomic (k : SeqLen) : EncodedLength.Statement (.atomic k) := ⟨_, _, rfl, rfl⟩
theorem EncodedLength.extr (k : SeqLen) : EncodedLength.Statement (.extr k) := ⟨_, _, rfl, rfl⟩
theorem EncodedLength.extsRw (m : RegNum) (k : SeqLen) : EncodedLength.Statement (.extsRw m k) := ⟨_, _, rfl, rfl⟩
theorem EncodedLength.extpRw (m : RegNum) (k : SeqLen) : EncodedLength.Statement (.extpRw m k) := ⟨_, _, rfl, rfl⟩
theorem EncodedLength.extsrRw (m : RegNum) (k : SeqLen) : EncodedLength.Statement (.extsrRw m k) := ⟨_, _, rfl, rfl⟩
theorem EncodedLength.extprRw (m : RegNum) (k : SeqLen) : EncodedLength.Statement (.extprRw m k) := ⟨_, _, rfl, rfl⟩
theorem EncodedLength.extsSeg (seg : SegNum) (k : SeqLen) : EncodedLength.Statement (.extsSeg seg k) :=
  ⟨_, _, rfl, rfl⟩
theorem EncodedLength.extsrSeg (seg : SegNum) (k : SeqLen) : EncodedLength.Statement (.extsrSeg seg k) :=
  ⟨_, _, rfl, rfl⟩
theorem EncodedLength.extpPag (pag : PageNum) (k : SeqLen) : EncodedLength.Statement (.extpPag pag k) :=
  ⟨_, _, rfl, rfl⟩
theorem EncodedLength.extprPag (pag : PageNum) (k : SeqLen) : EncodedLength.Statement (.extprPag pag k) :=
  ⟨_, _, rfl, rfl⟩
theorem EncodedLength.movRwImm4 (n : RegNum) (d : BitVec 4) : EncodedLength.Statement (.movRwImm4 n d) :=
  ⟨_, _, rfl, rfl⟩
theorem EncodedLength.movbRbImm4 (n : RegNum) (d : BitVec 4) : EncodedLength.Statement (.movbRbImm4 n d) :=
  ⟨_, _, rfl, rfl⟩
theorem EncodedLength.pcall (r : ShortReg) (a : Word) : EncodedLength.Statement (.pcall r a) := ⟨_, _, rfl, rfl⟩
theorem EncodedLength.movRegImm (r : ShortReg) (d : Word) : EncodedLength.Statement (.movRegImm r d) :=
  ⟨_, _, rfl, rfl⟩
theorem EncodedLength.movbRegImm (r : ShortReg) (d : Word) : EncodedLength.Statement (.movbRegImm r d) :=
  ⟨_, _, rfl, rfl⟩
theorem EncodedLength.movRwRw (n : RegNum) (m : RegNum) : EncodedLength.Statement (.movRwRw n m) := ⟨_, _, rfl, rfl⟩
theorem EncodedLength.movbRbRb (n : RegNum) (m : RegNum) : EncodedLength.Statement (.movbRbRb n m) := ⟨_, _, rfl, rfl⟩
theorem EncodedLength.movRegMem (r : ShortReg) (a : Word) : EncodedLength.Statement (.movRegMem r a) :=
  ⟨_, _, rfl, rfl⟩
theorem EncodedLength.movbRegMem (r : ShortReg) (a : Word) : EncodedLength.Statement (.movbRegMem r a) :=
  ⟨_, _, rfl, rfl⟩
theorem EncodedLength.movMemReg (a : Word) (r : ShortReg) : EncodedLength.Statement (.movMemReg a r) :=
  ⟨_, _, rfl, rfl⟩
theorem EncodedLength.movbMemReg (a : Word) (r : ShortReg) : EncodedLength.Statement (.movbMemReg a r) :=
  ⟨_, _, rfl, rfl⟩
theorem EncodedLength.undef3B : EncodedLength.Statement .undef3B := ⟨_, _, rfl, rfl⟩
theorem EncodedLength.undef44 : EncodedLength.Statement .undef44 := ⟨_, _, rfl, rfl⟩
theorem EncodedLength.undef45 : EncodedLength.Statement .undef45 := ⟨_, _, rfl, rfl⟩
theorem EncodedLength.undef85 : EncodedLength.Statement .undef85 := ⟨_, _, rfl, rfl⟩
theorem EncodedLength.undef8B : EncodedLength.Statement .undef8B := ⟨_, _, rfl, rfl⟩
theorem EncodedLength.undef8C : EncodedLength.Statement .undef8C := ⟨_, _, rfl, rfl⟩
theorem EncodedLength.undef95 : EncodedLength.Statement .undef95 := ⟨_, _, rfl, rfl⟩
theorem EncodedLength.undefC1 : EncodedLength.Statement .undefC1 := ⟨_, _, rfl, rfl⟩
theorem EncodedLength.undefC7 : EncodedLength.Statement .undefC7 := ⟨_, _, rfl, rfl⟩
theorem EncodedLength.undefE3 : EncodedLength.Statement .undefE3 := ⟨_, _, rfl, rfl⟩
theorem EncodedLength.undefE5 : EncodedLength.Statement .undefE5 := ⟨_, _, rfl, rfl⟩
theorem EncodedLength.undefF5 : EncodedLength.Statement .undefF5 := ⟨_, _, rfl, rfl⟩
theorem EncodedLength.undefF8 : EncodedLength.Statement .undefF8 := ⟨_, _, rfl, rfl⟩
theorem EncodedLength.undefF9 : EncodedLength.Statement .undefF9 := ⟨_, _, rfl, rfl⟩

end Sys2Proof.Laws
end

