-- ==== Sys2Proof/Tests/Slice0.lean ====
section
/-!
SUPPORT. Our own tests: terms that WellFormed refuses, words of the encoding tables decoded (30_encoding.md R103 to R118,
spec/opcode_table.json), one step on a small state with the end state of 95_test_vectors.md Part 2, and for each obligation
states and operands that meet its hypotheses.
-/

namespace Sys2Proof.Tests

open Sys2Proof.Machine

/-! Well-formed terms: each check of WellFormed.lean refuses the exact pattern of its protected opcode -/

theorem test_wf_refuses_idle_pattern : (Instr.protFault87 0x78#8 0x87#8 0x87#8).wf = false := by decide
theorem test_wf_refuses_pwrdn_pattern : (Instr.protFault97 0x68#8 0x97#8 0x97#8).wf = false := by decide
theorem test_wf_refuses_srvwdt_pattern : (Instr.protFaultA7 0x58#8 0xA7#8 0xA7#8).wf = false := by decide
theorem test_wf_refuses_diswdt_pattern : (Instr.protFaultA5 0x5A#8 0xA5#8 0xA5#8).wf = false := by decide
theorem test_wf_refuses_einit_pattern : (Instr.protFaultB5 0x4A#8 0xB5#8 0xB5#8).wf = false := by decide
theorem test_wf_refuses_srst_pattern : (Instr.protFaultB7 0x48#8 0xB7#8 0xB7#8).wf = false := by decide

/-! Decoding: one word for every constructor, its bytes written from the row's encoding and the field places of the
opcode table -/

theorem test_decode_add :
    decode 0x00#8 0x5A#8 0#8 0#8 = .instr (.addRwRw 5#4 10#4) ∧
    decode 0x02#8 0x3F#8 0x9E#8 0xD1#8 = .instr (.addRegMem 0x3F#8 0xD19E#16) ∧
    decode 0x04#8 0x42#8 0xF5#8 0xE4#8 = .instr (.addMemReg 0xE4F5#16 0x42#8) ∧
    decode 0x06#8 0x45#8 0x93#8 0x6D#8 = .instr (.addRegImm 0x45#8 0x6D93#16) ∧
    decode 0x08#8 0x97#8 0#8 0#8 = .instr (.addRwImm3 9#4 7#3) ∧
    decode 0x08#8 0xAA#8 0#8 0#8 = .instr (.addRwInd 10#4 2#2) ∧
    decode 0x08#8 0xBF#8 0#8 0#8 = .instr (.addRwInc 11#4 3#2) ∧
    decode 0x01#8 0xC1#8 0#8 0#8 = .instr (.addbRbRb 12#4 1#4) ∧
    decode 0x03#8 0x54#8 0xFF#8 0x58#8 = .instr (.addbRegMem 0x54#8 0x58FF#16) ∧
    decode 0x05#8 0x57#8 0x56#8 0x6C#8 = .instr (.addbMemReg 0x6C56#16 0x57#8) ∧
    decode 0x07#8 0x5A#8 0x93#8 0x6D#8 = .instr (.addbRegImm 0x5A#8 0x6D93#16) ∧
    decode 0x09#8 0x06#8 0#8 0#8 = .instr (.addbRbImm3 0#4 6#3) ∧
    decode 0x09#8 0x19#8 0#8 0#8 = .instr (.addbRbInd 1#4 1#2) ∧
    decode 0x09#8 0x2E#8 0#8 0#8 = .instr (.addbRbInc 2#4 2#2) := by
  decide

theorem test_decode_addc :
    decode 0x10#8 0x38#8 0#8 0#8 = .instr (.addcRwRw 3#4 8#4) ∧
    decode 0x12#8 0x69#8 0x60#8 0xE0#8 = .instr (.addcRegMem 0x69#8 0xE060#16) ∧
    decode 0x14#8 0x6C#8 0xB7#8 0xF3#8 = .instr (.addcMemReg 0xF3B7#16 0x6C#8) ∧
    decode 0x16#8 0x6F#8 0x93#8 0x6D#8 = .instr (.addcRegImm 0x6F#8 0x6D93#16) ∧
    decode 0x18#8 0x75#8 0#8 0#8 = .instr (.addcRwImm3 7#4 5#3) ∧
    decode 0x18#8 0x88#8 0#8 0#8 = .instr (.addcRwInd 8#4 0#2) ∧
    decode 0x18#8 0x9D#8 0#8 0#8 = .instr (.addcRwInc 9#4 1#2) ∧
    decode 0x11#8 0xAF#8 0#8 0#8 = .instr (.addcbRbRb 10#4 15#4) ∧
    decode 0x13#8 0x7E#8 0xC1#8 0x67#8 = .instr (.addcbRegMem 0x7E#8 0x67C1#16) ∧
    decode 0x15#8 0x81#8 0x18#8 0x7B#8 = .instr (.addcbMemReg 0x7B18#16 0x81#8) ∧
    decode 0x17#8 0x84#8 0x93#8 0x6D#8 = .instr (.addcbRegImm 0x84#8 0x6D93#16) ∧
    decode 0x19#8 0xE4#8 0#8 0#8 = .instr (.addcbRbImm3 14#4 4#3) ∧
    decode 0x19#8 0xFB#8 0#8 0#8 = .instr (.addcbRbInd 15#4 3#2) ∧
    decode 0x19#8 0x0C#8 0#8 0#8 = .instr (.addcbRbInc 0#4 0#2) := by
  decide

theorem test_decode_sub :
    decode 0x20#8 0x16#8 0#8 0#8 = .instr (.subRwRw 1#4 6#4) ∧
    decode 0x22#8 0x93#8 0x22#8 0xEF#8 = .instr (.subRegMem 0x93#8 0xEF22#16) ∧
    decode 0x24#8 0x96#8 0x79#8 0x02#8 = .instr (.subMemReg 0x279#16 0x96#8) ∧
    decode 0x26#8 0x99#8 0x93#8 0x6D#8 = .instr (.subRegImm 0x99#8 0x6D93#16) ∧
    decode 0x28#8 0x53#8 0#8 0#8 = .instr (.subRwImm3 5#4 3#3) ∧
    decode 0x28#8 0x6A#8 0#8 0#8 = .instr (.subRwInd 6#4 2#2) ∧
    decode 0x28#8 0x7F#8 0#8 0#8 = .instr (.subRwInc 7#4 3#2) ∧
    decode 0x21#8 0x8D#8 0#8 0#8 = .instr (.subbRbRb 8#4 13#4) ∧
    decode 0x23#8 0xA8#8 0x83#8 0x76#8 = .instr (.subbRegMem 0xA8#8 0x7683#16) ∧
    decode 0x25#8 0xAB#8 0xDA#8 0x89#8 = .instr (.subbMemReg 0x89DA#16 0xAB#8) ∧
    decode 0x27#8 0xAE#8 0x93#8 0x6D#8 = .instr (.subbRegImm 0xAE#8 0x6D93#16) ∧
    decode 0x29#8 0xC2#8 0#8 0#8 = .instr (.subbRbImm3 12#4 2#3) ∧
    decode 0x29#8 0xD9#8 0#8 0#8 = .instr (.subbRbInd 13#4 1#2) ∧
    decode 0x29#8 0xEE#8 0#8 0#8 = .instr (.subbRbInc 14#4 2#2) := by
  decide

theorem test_decode_subc :
    decode 0x30#8 0xF4#8 0#8 0#8 = .instr (.subcRwRw 15#4 4#4) ∧
    decode 0x32#8 0xBD#8 0xE4#8 0xFD#8 = .instr (.subcRegMem 0xBD#8 0xFDE4#16) ∧
    decode 0x34#8 0xC0#8 0x3B#8 0x11#8 = .instr (.subcMemReg 0x113B#16 0xC0#8) ∧
    decode 0x36#8 0xC3#8 0x93#8 0x6D#8 = .instr (.subcRegImm 0xC3#8 0x6D93#16) ∧
    decode 0x38#8 0x31#8 0#8 0#8 = .instr (.subcRwImm3 3#4 1#3) ∧
    decode 0x38#8 0x48#8 0#8 0#8 = .instr (.subcRwInd 4#4 0#2) ∧
    decode 0x38#8 0x5D#8 0#8 0#8 = .instr (.subcRwInc 5#4 1#2) ∧
    decode 0x31#8 0x6B#8 0#8 0#8 = .instr (.subcbRbRb 6#4 11#4) ∧
    decode 0x33#8 0xD2#8 0x45#8 0x85#8 = .instr (.subcbRegMem 0xD2#8 0x8545#16) ∧
    decode 0x35#8 0xD5#8 0x9C#8 0x98#8 = .instr (.subcbMemReg 0x989C#16 0xD5#8) ∧
    decode 0x37#8 0xD8#8 0x93#8 0x6D#8 = .instr (.subcbRegImm 0xD8#8 0x6D93#16) ∧
    decode 0x39#8 0xA0#8 0#8 0#8 = .instr (.subcbRbImm3 10#4 0#3) ∧
    decode 0x39#8 0xBB#8 0#8 0#8 = .instr (.subcbRbInd 11#4 3#2) ∧
    decode 0x39#8 0xCC#8 0#8 0#8 = .instr (.subcbRbInc 12#4 0#2) := by
  decide

theorem test_decode_and :
    decode 0x60#8 0x7C#8 0#8 0#8 = .instr (.andRwRw 7#4 12#4) ∧
    decode 0x62#8 0x35#8 0x7C#8 0x03#8 = .instr (.andRegMem 0x35#8 0x37C#16) ∧
    decode 0x64#8 0x38#8 0xD3#8 0x16#8 = .instr (.andMemReg 0x16D3#16 0x38#8) ∧
    decode 0x66#8 0x3B#8 0x93#8 0x6D#8 = .instr (.andRegImm 0x3B#8 0x6D93#16) ∧
    decode 0x68#8 0xB1#8 0#8 0#8 = .instr (.andRwImm3 11#4 1#3) ∧
    decode 0x68#8 0xC8#8 0#8 0#8 = .instr (.andRwInd 12#4 0#2) ∧
    decode 0x68#8 0xDD#8 0#8 0#8 = .instr (.andRwInc 13#4 1#2) ∧
    decode 0x61#8 0xE3#8 0#8 0#8 = .instr (.andbRbRb 14#4 3#4) ∧
    decode 0x63#8 0x4A#8 0xDD#8 0x8A#8 = .instr (.andbRegMem 0x4A#8 0x8ADD#16) ∧
    decode 0x65#8 0x4D#8 0x34#8 0x9E#8 = .instr (.andbMemReg 0x9E34#16 0x4D#8) ∧
    decode 0x67#8 0x50#8 0x93#8 0x6D#8 = .instr (.andbRegImm 0x50#8 0x6D93#16) ∧
    decode 0x69#8 0x20#8 0#8 0#8 = .instr (.andbRbImm3 2#4 0#3) ∧
    decode 0x69#8 0x3B#8 0#8 0#8 = .instr (.andbRbInd 3#4 3#2) ∧
    decode 0x69#8 0x4C#8 0#8 0#8 = .instr (.andbRbInc 4#4 0#2) := by
  decide

theorem test_decode_or :
    decode 0x70#8 0x5A#8 0#8 0#8 = .instr (.orRwRw 5#4 10#4) ∧
    decode 0x72#8 0x5F#8 0x3E#8 0x12#8 = .instr (.orRegMem 0x5F#8 0x123E#16) ∧
    decode 0x74#8 0x62#8 0x95#8 0x25#8 = .instr (.orMemReg 0x2595#16 0x62#8) ∧
    decode 0x76#8 0x65#8 0x93#8 0x6D#8 = .instr (.orRegImm 0x65#8 0x6D93#16) ∧
    decode 0x78#8 0x97#8 0#8 0#8 = .instr (.orRwImm3 9#4 7#3) ∧
    decode 0x78#8 0xAA#8 0#8 0#8 = .instr (.orRwInd 10#4 2#2) ∧
    decode 0x78#8 0xBF#8 0#8 0#8 = .instr (.orRwInc 11#4 3#2) ∧
    decode 0x71#8 0xC1#8 0#8 0#8 = .instr (.orbRbRb 12#4 1#4) ∧
    decode 0x73#8 0x74#8 0x9F#8 0x99#8 = .instr (.orbRegMem 0x74#8 0x999F#16) ∧
    decode 0x75#8 0x77#8 0xF6#8 0xAC#8 = .instr (.orbMemReg 0xACF6#16 0x77#8) ∧
    decode 0x77#8 0x7A#8 0x93#8 0x6D#8 = .instr (.orbRegImm 0x7A#8 0x6D93#16) ∧
    decode 0x79#8 0x06#8 0#8 0#8 = .instr (.orbRbImm3 0#4 6#3) ∧
    decode 0x79#8 0x19#8 0#8 0#8 = .instr (.orbRbInd 1#4 1#2) ∧
    decode 0x79#8 0x2E#8 0#8 0#8 = .instr (.orbRbInc 2#4 2#2) := by
  decide

theorem test_decode_xor :
    decode 0x50#8 0x9E#8 0#8 0#8 = .instr (.xorRwRw 9#4 14#4) ∧
    decode 0x52#8 0x0B#8 0xBA#8 0xF4#8 = .instr (.xorRegMem 0xB#8 0xF4BA#16) ∧
    decode 0x54#8 0x0E#8 0x11#8 0x08#8 = .instr (.xorMemReg 0x811#16 0xE#8) ∧
    decode 0x56#8 0x11#8 0x93#8 0x6D#8 = .instr (.xorRegImm 0x11#8 0x6D93#16) ∧
    decode 0x58#8 0xD3#8 0#8 0#8 = .instr (.xorRwImm3 13#4 3#3) ∧
    decode 0x58#8 0xEA#8 0#8 0#8 = .instr (.xorRwInd 14#4 2#2) ∧
    decode 0x58#8 0xFF#8 0#8 0#8 = .instr (.xorRwInc 15#4 3#2) ∧
    decode 0x51#8 0x05#8 0#8 0#8 = .instr (.xorbRbRb 0#4 5#4) ∧
    decode 0x53#8 0x20#8 0x1B#8 0x7C#8 = .instr (.xorbRegMem 0x20#8 0x7C1B#16) ∧
    decode 0x55#8 0x23#8 0x72#8 0x8F#8 = .instr (.xorbMemReg 0x8F72#16 0x23#8) ∧
    decode 0x57#8 0x26#8 0x93#8 0x6D#8 = .instr (.xorbRegImm 0x26#8 0x6D93#16) ∧
    decode 0x59#8 0x42#8 0#8 0#8 = .instr (.xorbRbImm3 4#4 2#3) ∧
    decode 0x59#8 0x59#8 0#8 0#8 = .instr (.xorbRbInd 5#4 1#2) ∧
    decode 0x59#8 0x6E#8 0#8 0#8 = .instr (.xorbRbInc 6#4 2#2) := by
  decide

theorem test_decode_cmp :
    decode 0x40#8 0xD2#8 0#8 0#8 = .instr (.cmpRwRw 13#4 2#4) ∧
    decode 0x42#8 0xE7#8 0xA6#8 0x0C#8 = .instr (.cmpRegMem 0xE7#8 0xCA6#16) ∧
    decode 0x46#8 0xEA#8 0x93#8 0x6D#8 = .instr (.cmpRegImm 0xEA#8 0x6D93#16) ∧
    decode 0x48#8 0x06#8 0#8 0#8 = .instr (.cmpRwImm3 0#4 6#3) ∧
    decode 0x48#8 0x19#8 0#8 0#8 = .instr (.cmpRwInd 1#4 1#2) ∧
    decode 0x48#8 0x2E#8 0#8 0#8 = .instr (.cmpRwInc 2#4 2#2) ∧
    decode 0x41#8 0x38#8 0#8 0#8 = .instr (.cmpbRbRb 3#4 8#4) ∧
    decode 0x43#8 0xF9#8 0xB0#8 0x80#8 = .instr (.cmpbRegMem 0xF9#8 0x80B0#16) ∧
    decode 0x47#8 0xFC#8 0x93#8 0x6D#8 = .instr (.cmpbRegImm 0xFC#8 0x6D93#16) ∧
    decode 0x49#8 0x64#8 0#8 0#8 = .instr (.cmpbRbImm3 6#4 4#3) ∧
    decode 0x49#8 0x7B#8 0#8 0#8 = .instr (.cmpbRbInd 7#4 3#2) ∧
    decode 0x49#8 0x8C#8 0#8 0#8 = .instr (.cmpbRbInc 8#4 0#2) := by
  decide

theorem test_decode_multiply_divide :
    decode 0x0B#8 0x38#8 0#8 0#8 = .instr (.mul 3#4 8#4) ∧
    decode 0x1B#8 0x49#8 0#8 0#8 = .instr (.mulu 4#4 9#4) ∧
    decode 0x4B#8 0x66#8 0#8 0#8 = .instr (.div 6#4) ∧
    decode 0x5B#8 0x77#8 0#8 0#8 = .instr (.divu 7#4) ∧
    decode 0x6B#8 0x88#8 0#8 0#8 = .instr (.divl 8#4) ∧
    decode 0x7B#8 0x99#8 0#8 0#8 = .instr (.divlu 9#4) ∧
    decode 0x81#8 0xE0#8 0#8 0#8 = .instr (.neg 14#4) ∧
    decode 0x91#8 0xF0#8 0#8 0#8 = .instr (.cpl 15#4) ∧
    decode 0xA1#8 0x00#8 0#8 0#8 = .instr (.negb 0#4) ∧
    decode 0xB1#8 0x10#8 0#8 0#8 = .instr (.cplb 1#4) := by
  decide

theorem test_decode_bits :
    decode 0x0A#8 0x0C#8 0x1E#8 0x93#8 = .instr (.bfldl 0xC#8 0x1E#8 0x93#8) ∧
    decode 0x1A#8 0x0C#8 0x93#8 0x1E#8 = .instr (.bfldh 0xC#8 0x1E#8 0x93#8) ∧
    decode 0x2A#8 0x9B#8 0x27#8 0xC3#8 = .instr (.bcmp 0x27#8 3#4 0x9B#8 12#4) ∧
    decode 0x3A#8 0x9B#8 0x27#8 0xD4#8 = .instr (.bmovn 0x27#8 4#4 0x9B#8 13#4) ∧
    decode 0x4A#8 0x9B#8 0x27#8 0xE5#8 = .instr (.bmov 0x27#8 5#4 0x9B#8 14#4) ∧
    decode 0x5A#8 0x9B#8 0x27#8 0xF6#8 = .instr (.bor 0x27#8 6#4 0x9B#8 15#4) ∧
    decode 0x6A#8 0x9B#8 0x27#8 0x07#8 = .instr (.band 0x27#8 7#4 0x9B#8 0#4) ∧
    decode 0x7A#8 0x9B#8 0x27#8 0x18#8 = .instr (.bxor 0x27#8 8#4 0x9B#8 1#4) ∧
    decode 0x7E#8 0x9B#8 0#8 0#8 = .instr (.bclr 0x9B#8 7#4) ∧
    decode 0x8F#8 0x9B#8 0#8 0#8 = .instr (.bset 0x9B#8 8#4) := by
  decide

theorem test_decode_compare_step :
    decode 0x80#8 0x02#8 0#8 0#8 = .instr (.cmpi1RwImm4 2#4 0#4) ∧
    decode 0x82#8 0xF3#8 0xF9#8 0xAD#8 = .instr (.cmpi1RwMem 3#4 0xADF9#16) ∧
    decode 0x86#8 0xF4#8 0x93#8 0x6D#8 = .instr (.cmpi1RwImm16 4#4 0x6D93#16) ∧
    decode 0x90#8 0x35#8 0#8 0#8 = .instr (.cmpi2RwImm4 5#4 3#4) ∧
    decode 0x92#8 0xF6#8 0xFE#8 0xE7#8 = .instr (.cmpi2RwMem 6#4 0xE7FE#16) ∧
    decode 0x96#8 0xF7#8 0x93#8 0x6D#8 = .instr (.cmpi2RwImm16 7#4 0x6D93#16) ∧
    decode 0xA0#8 0x68#8 0#8 0#8 = .instr (.cmpd1RwImm4 8#4 6#4) ∧
    decode 0xA2#8 0xF9#8 0x03#8 0x22#8 = .instr (.cmpd1RwMem 9#4 0x2203#16) ∧
    decode 0xA6#8 0xFA#8 0x93#8 0x6D#8 = .instr (.cmpd1RwImm16 10#4 0x6D93#16) ∧
    decode 0xB0#8 0x9B#8 0#8 0#8 = .instr (.cmpd2RwImm4 11#4 9#4) ∧
    decode 0xB2#8 0xFC#8 0x08#8 0x5C#8 = .instr (.cmpd2RwMem 12#4 0x5C08#16) ∧
    decode 0xB6#8 0xFD#8 0x93#8 0x6D#8 = .instr (.cmpd2RwImm16 13#4 0x6D93#16) := by
  decide

theorem test_decode_shift :
    decode 0x2B#8 0x5A#8 0#8 0#8 = .instr (.prior 5#4 10#4) ∧
    decode 0x0C#8 0x16#8 0#8 0#8 = .instr (.rolRwRw 1#4 6#4) ∧
    decode 0x1C#8 0x02#8 0#8 0#8 = .instr (.rolRwImm4 2#4 0#4) ∧
    decode 0x2C#8 0x38#8 0#8 0#8 = .instr (.rorRwRw 3#4 8#4) ∧
    decode 0x3C#8 0x24#8 0#8 0#8 = .instr (.rorRwImm4 4#4 2#4) ∧
    decode 0x4C#8 0x5A#8 0#8 0#8 = .instr (.shlRwRw 5#4 10#4) ∧
    decode 0x5C#8 0x46#8 0#8 0#8 = .instr (.shlRwImm4 6#4 4#4) ∧
    decode 0x6C#8 0x7C#8 0#8 0#8 = .instr (.shrRwRw 7#4 12#4) ∧
    decode 0x7C#8 0x68#8 0#8 0#8 = .instr (.shrRwImm4 8#4 6#4) ∧
    decode 0xAC#8 0x9E#8 0#8 0#8 = .instr (.ashrRwRw 9#4 14#4) ∧
    decode 0xBC#8 0x8A#8 0#8 0#8 = .instr (.ashrRwImm4 10#4 8#4) := by
  decide

theorem test_decode_mov_1 :
    decode 0x84#8 0x08#8 0x1C#8 0x44#8 = .instr (.movIndMem 8#4 0x441C#16) ∧
    decode 0x94#8 0x09#8 0x73#8 0x57#8 = .instr (.movMemInd 0x5773#16 9#4) ∧
    decode 0xA8#8 0x8D#8 0#8 0#8 = .instr (.movRwInd 8#4 13#4) ∧
    decode 0x98#8 0xAF#8 0#8 0#8 = .instr (.movRwInc 10#4 15#4) ∧
    decode 0xB8#8 0xC1#8 0#8 0#8 = .instr (.movIndRw 1#4 12#4) ∧
    decode 0x88#8 0xE3#8 0#8 0#8 = .instr (.movDecRw 3#4 14#4) ∧
    decode 0xC8#8 0x05#8 0#8 0#8 = .instr (.movIndInd 0#4 5#4) ∧
    decode 0xD8#8 0x27#8 0#8 0#8 = .instr (.movIncInd 2#4 7#4) ∧
    decode 0xE8#8 0x49#8 0#8 0#8 = .instr (.movIndInc 4#4 9#4) ∧
    decode 0xC4#8 0xC1#8 0x93#8 0x6D#8 = .instr (.movDispRw 1#4 0x6D93#16 12#4) ∧
    decode 0xD4#8 0xD2#8 0x93#8 0x6D#8 = .instr (.movRwDisp 13#4 2#4 0x6D93#16) ∧
    decode 0xE0#8 0xAC#8 0#8 0#8 = .instr (.movRwImm4 12#4 10#4) ∧
    decode 0xE6#8 0xFA#8 0x93#8 0x6D#8 = .instr (.movRegImm 0xFA#8 0x6D93#16) ∧
    decode 0xF0#8 0x16#8 0#8 0#8 = .instr (.movRwRw 1#4 6#4) ∧
    decode 0xF2#8 0x06#8 0x29#8 0xB9#8 = .instr (.movRegMem 0x6#8 0xB929#16) := by
  decide

theorem test_decode_mov_2 :
    decode 0xF6#8 0x0C#8 0xD7#8 0xDF#8 = .instr (.movMemReg 0xDFD7#16 0xC#8) := by
  decide

theorem test_decode_movb_1 :
    decode 0xA4#8 0x0A#8 0xCA#8 0x6A#8 = .instr (.movbIndMem 10#4 0x6ACA#16) ∧
    decode 0xB4#8 0x0B#8 0x21#8 0x7E#8 = .instr (.movbMemInd 0x7E21#16 11#4) ∧
    decode 0xA9#8 0x9E#8 0#8 0#8 = .instr (.movbRbInd 9#4 14#4) ∧
    decode 0x99#8 0xB0#8 0#8 0#8 = .instr (.movbRbInc 11#4 0#4) ∧
    decode 0xB9#8 0xD2#8 0#8 0#8 = .instr (.movbIndRb 2#4 13#4) ∧
    decode 0x89#8 0xF4#8 0#8 0#8 = .instr (.movbDecRb 4#4 15#4) ∧
    decode 0xC9#8 0x16#8 0#8 0#8 = .instr (.movbIndInd 1#4 6#4) ∧
    decode 0xD9#8 0x38#8 0#8 0#8 = .instr (.movbIncInd 3#4 8#4) ∧
    decode 0xE9#8 0x5A#8 0#8 0#8 = .instr (.movbIndInc 5#4 10#4) ∧
    decode 0xE4#8 0xE3#8 0x93#8 0x6D#8 = .instr (.movbDispRb 3#4 0x6D93#16 14#4) ∧
    decode 0xF4#8 0xF4#8 0x93#8 0x6D#8 = .instr (.movbRbDisp 15#4 4#4 0x6D93#16) ∧
    decode 0xE1#8 0xBD#8 0#8 0#8 = .instr (.movbRbImm4 13#4 11#4) ∧
    decode 0xE7#8 0xFD#8 0x93#8 0x6D#8 = .instr (.movbRegImm 0xFD#8 0x6D93#16) ∧
    decode 0xF1#8 0x27#8 0#8 0#8 = .instr (.movbRbRb 2#4 7#4) ∧
    decode 0xF3#8 0x09#8 0x80#8 0xCC#8 = .instr (.movbRegMem 0x9#8 0xCC80#16) := by
  decide

theorem test_decode_movb_2 :
    decode 0xF7#8 0x0F#8 0x2E#8 0xF3#8 = .instr (.movbMemReg 0xF32E#16 0xF#8) := by
  decide

theorem test_decode_movbs_movbz :
    decode 0xC0#8 0xB6#8 0#8 0#8 = .instr (.movbzRwRb 6#4 11#4) ∧
    decode 0xC2#8 0xB2#8 0xA5#8 0x9B#8 = .instr (.movbzRegMem 0xB2#8 0x9BA5#16) ∧
    decode 0xC5#8 0xB5#8 0xFC#8 0xAE#8 = .instr (.movbzMemReg 0xAEFC#16 0xB5#8) ∧
    decode 0xD0#8 0xE9#8 0#8 0#8 = .instr (.movbsRwRb 9#4 14#4) ∧
    decode 0xD2#8 0xBB#8 0xAA#8 0xD5#8 = .instr (.movbsRegMem 0xBB#8 0xD5AA#16) ∧
    decode 0xD5#8 0xBE#8 0x01#8 0xE9#8 = .instr (.movbsMemReg 0xE901#16 0xBE#8) := by
  decide

theorem test_decode_jump_call :
    decode 0x8A#8 0x9B#8 0xF6#8 0x20#8 = .instr (.jb 0x9B#8 2#4 0xF6#8) ∧
    decode 0x9A#8 0x9B#8 0xF6#8 0x30#8 = .instr (.jnb 0x9B#8 3#4 0xF6#8) ∧
    decode 0xAA#8 0x9B#8 0xF6#8 0x40#8 = .instr (.jbc 0x9B#8 4#4 0xF6#8) ∧
    decode 0xBA#8 0x9B#8 0xF6#8 0x50#8 = .instr (.jnbs 0x9B#8 5#4 0xF6#8) ∧
    decode 0xCA#8 0x50#8 0xBD#8 0xF5#8 = .instr (.calla .nv 0xF5BD#16) ∧
    decode 0xDA#8 0x42#8 0x14#8 0x09#8 = .instr (.calls 0x42#8 0x914#16) ∧
    decode 0xEA#8 0x70#8 0x6B#8 0x1C#8 = .instr (.jmpa .nn 0x1C6B#16) ∧
    decode 0xFA#8 0x42#8 0xC2#8 0x2F#8 = .instr (.jmps 0x42#8 0x2FC2#16) ∧
    decode 0x9B#8 0xA2#8 0#8 0#8 = .instr (.trap 0x51#7) ∧
    decode 0xAB#8 0x1B#8 0#8 0#8 = .instr (.calli .net 11#4) ∧
    decode 0xBB#8 0xF6#8 0#8 0#8 = .instr (.callr 0xF6#8) ∧
    decode 0x9C#8 0x1B#8 0#8 0#8 = .instr (.jmpi .net 11#4) ∧
    decode 0x5D#8 0xF6#8 0#8 0#8 = .instr (.jmpr .nv 0xF6#8) ∧
    decode 0xE2#8 0xF7#8 0x76#8 0x58#8 = .instr (.pcall 0xF7#8 0x5876#16) := by
  decide

theorem test_decode_stack :
    decode 0xCB#8 0x00#8 0#8 0#8 = .instr .ret ∧
    decode 0xDB#8 0x00#8 0#8 0#8 = .instr .rets ∧
    decode 0xEB#8 0xDA#8 0#8 0#8 = .instr (.retp 0xDA#8) ∧
    decode 0xFB#8 0x88#8 0#8 0#8 = .instr .reti ∧
    decode 0xEC#8 0x04#8 0#8 0#8 = .instr (.push 0x4#8) ∧
    decode 0xFC#8 0x07#8 0#8 0#8 = .instr (.pop 0x7#8) ∧
    decode 0xC6#8 0xCD#8 0x93#8 0x6D#8 = .instr (.scxtRegImm 0xCD#8 0x6D93#16) ∧
    decode 0xD6#8 0xD0#8 0x0B#8 0x5D#8 = .instr (.scxtRegMem 0xD0#8 0x5D0B#16) := by
  decide

theorem test_decode_system_1 :
    decode 0xCC#8 0x00#8 0#8 0#8 = .instr .nop ∧
    decode 0x83#8 0x00#8 0x00#8 0x00#8 = .instr .coxxx83 ∧
    decode 0x93#8 0x00#8 0x00#8 0x00#8 = .instr .coxxx93 ∧
    decode 0xA3#8 0x00#8 0x00#8 0x00#8 = .instr .coxxxA3 ∧
    decode 0xB3#8 0x00#8 0x00#8 0x00#8 = .instr .costoreB3 ∧
    decode 0xC3#8 0x00#8 0x00#8 0x00#8 = .instr .costoreC3 ∧
    decode 0xD3#8 0x00#8 0x00#8 0x00#8 = .instr .comovD3 ∧
    decode 0x87#8 0x78#8 0x87#8 0x87#8 = .instr .idle ∧
    decode 0x87#8 0x11#8 0x22#8 0x33#8 = .instr (.protFault87 0x11#8 0x22#8 0x33#8) ∧
    decode 0x97#8 0x68#8 0x97#8 0x97#8 = .instr .pwrdn ∧
    decode 0x97#8 0x11#8 0x22#8 0x33#8 = .instr (.protFault97 0x11#8 0x22#8 0x33#8) ∧
    decode 0xA7#8 0x58#8 0xA7#8 0xA7#8 = .instr .srvwdt ∧
    decode 0xA7#8 0x11#8 0x22#8 0x33#8 = .instr (.protFaultA7 0x11#8 0x22#8 0x33#8) ∧
    decode 0xA5#8 0x5A#8 0xA5#8 0xA5#8 = .instr .diswdt ∧
    decode 0xA5#8 0x11#8 0x22#8 0x33#8 = .instr (.protFaultA5 0x11#8 0x22#8 0x33#8) := by
  decide

theorem test_decode_system_2 :
    decode 0xB5#8 0x4A#8 0xB5#8 0xB5#8 = .instr .einit ∧
    decode 0xB5#8 0x11#8 0x22#8 0x33#8 = .instr (.protFaultB5 0x11#8 0x22#8 0x33#8) ∧
    decode 0xB7#8 0x48#8 0xB7#8 0xB7#8 = .instr .srst ∧
    decode 0xB7#8 0x11#8 0x22#8 0x33#8 = .instr (.protFaultB7 0x11#8 0x22#8 0x33#8) ∧
    decode 0xD1#8 0x20#8 0#8 0#8 = .instr (.atomic 2#2) ∧
    decode 0xD1#8 0xA0#8 0#8 0#8 = .instr (.extr 2#2) ∧
    decode 0xDC#8 0x29#8 0#8 0#8 = .instr (.extsRw 9#4 2#2) ∧
    decode 0xDC#8 0x6A#8 0#8 0#8 = .instr (.extpRw 10#4 2#2) ∧
    decode 0xDC#8 0xAB#8 0#8 0#8 = .instr (.extsrRw 11#4 2#2) ∧
    decode 0xDC#8 0xEC#8 0#8 0#8 = .instr (.extprRw 12#4 2#2) ∧
    decode 0xD7#8 0x20#8 0x42#8 0x00#8 = .instr (.extsSeg 0x42#8 2#2) ∧
    decode 0xD7#8 0xA0#8 0x42#8 0x00#8 = .instr (.extsrSeg 0x42#8 2#2) ∧
    decode 0xD7#8 0x60#8 0xC5#8 0x02#8 = .instr (.extpPag 0x2C5#10 2#2) ∧
    decode 0xD7#8 0xE0#8 0xC5#8 0x02#8 = .instr (.extprPag 0x2C5#10 2#2) := by
  decide

theorem test_decode_undefined :
    decode 0x3B#8 0x00#8 0#8 0#8 = .instr .undef3B ∧
    decode 0x44#8 0x00#8 0#8 0#8 = .instr .undef44 ∧
    decode 0x45#8 0x00#8 0#8 0#8 = .instr .undef45 ∧
    decode 0x85#8 0x00#8 0#8 0#8 = .instr .undef85 ∧
    decode 0x8B#8 0x00#8 0#8 0#8 = .instr .undef8B ∧
    decode 0x8C#8 0x00#8 0#8 0#8 = .instr .undef8C ∧
    decode 0x95#8 0x00#8 0#8 0#8 = .instr .undef95 ∧
    decode 0xC1#8 0x00#8 0#8 0#8 = .instr .undefC1 ∧
    decode 0xC7#8 0x00#8 0#8 0#8 = .instr .undefC7 ∧
    decode 0xE3#8 0x00#8 0#8 0#8 = .instr .undefE3 ∧
    decode 0xE5#8 0x00#8 0#8 0#8 = .instr .undefE5 ∧
    decode 0xF5#8 0x00#8 0#8 0#8 = .instr .undefF5 ∧
    decode 0xF8#8 0x00#8 0#8 0#8 = .instr .undefF8 ∧
    decode 0xF9#8 0x00#8 0#8 0#8 = .instr .undefF9 := by
  decide

/-- An encoding reserved by 30_encoding.md R114, and one straight after it that is not. -/
theorem test_decode_reserved :
    decode 0x4B#8 0x12#8 0#8 0#8 = .reserved 0x4B#8 ∧ decode 0x4B#8 0x11#8 0#8 0#8 = .instr (.div 1#4) := by
  decide

/-! One step -/

/-- Words stored in memory. -/
def withWords (s : State) (l : List (Addr × Word)) : State := l.foldl (fun s p => setWord s p.1 p.2) s

/-- The common start state of 95_test_vectors.md Part 2: reset, the sixteen GPRs 0, IP 0200h. -/
def common : State :=
  withWords { State.reset with ip := 0x0200#16 }
    ((List.range 16).map fun n => (BitVec.ofNat 24 (0xFC00 + 2 * n), 0#16))

/-- Bytes placed at IP in segment 0. -/
def placed (s : State) (bs : List Byte) : State :=
  bs.zipIdx.foldl (fun s p => setByte s (codeAddr s (BitVec.ofNat 16 p.2)) p.1) s

/-- Whether one step of the bytes at IP ends with this IP, this PSW and these words at their addresses. -/
def ends (s : State) (bs : List Byte) (ip psw : Word) (l : List (Addr × Word)) : Bool :=
  match step (placed s bs) with
  | .next t => t.ip == ip && t.psw == psw && l.all fun p => peek .word t p.1 == some p.2
  | _ => false

/-- Whether one step refuses for this reason. -/
def refuses (s : State) (bs : List Byte) (r : Refusal) : Bool :=
  match step (placed s bs) with
  | .refused e => e == r
  | _ => false

/-- 95_test_vectors.md VA2: ADD R1, R2. -/
theorem test_add_VA2 :
    ends (withWords common [(0xFC02#24, 0xFFFF#16), (0xFC04#24, 0x0001#16)]) [0x00#8, 0x12#8] 0x0202#16 0x000A#16
      [(0xFC02#24, 0x0000#16)] = true := by
  decide

/-- 95_test_vectors.md VA11: ADDB RL2, [R1+]. -/
theorem test_addb_VA11 :
    ends (withWords common [(0xFC02#24, 0xF601#16), (0xFC04#24, 0x12FF#16), (0xF600#24, 0x0100#16)]) [0x09#8, 0x4D#8] 0x0202#16 0x000A#16
      [(0xFC02#24, 0xF602#16), (0xFC04#24, 0x1200#16)] = true := by
  decide

/-- 95_test_vectors.md VA14: ADDC R1, #0. -/
theorem test_addc_VA14 :
    ends { withWords common [(0xFC02#24, 0xFFFF#16)] with psw := 0x2#16 } [0x16#8, 0xF1#8, 0x00#8, 0x00#8] 0x0204#16 0x0002#16
      [(0xFC02#24, 0x0000#16)] = true := by
  decide

/-- 95_test_vectors.md VA16: ADDCB RL1, #7Fh. -/
theorem test_addcb_VA16 :
    ends { withWords common [(0xFC02#24, 0x0000#16)] with psw := 0x2#16 } [0x17#8, 0xF2#8, 0x7F#8, 0x00#8] 0x0204#16 0x0005#16
      [(0xFC02#24, 0x0080#16)] = true := by
  decide

/-- 95_test_vectors.md VA18: SUB R1, #1. -/
theorem test_sub_VA18 :
    ends (withWords common [(0xFC02#24, 0x8000#16)]) [0x26#8, 0xF1#8, 0x01#8, 0x00#8] 0x0204#16 0x0004#16
      [(0xFC02#24, 0x7FFF#16)] = true := by
  decide

/-- 95_test_vectors.md VA20: SUBB RL1, RL2. -/
theorem test_subb_VA20 :
    ends (withWords common [(0xFC02#24, 0x0010#16), (0xFC04#24, 0x0020#16)]) [0x21#8, 0x24#8] 0x0202#16 0x0003#16
      [(0xFC02#24, 0x00F0#16)] = true := by
  decide

/-- 95_test_vectors.md VA22: SUBC R1, #0. -/
theorem test_subc_VA22 :
    ends { withWords common [(0xFC02#24, 0x0000#16)] with psw := 0xA#16 } [0x36#8, 0xF1#8, 0x00#8, 0x00#8] 0x0204#16 0x0003#16
      [(0xFC02#24, 0xFFFF#16)] = true := by
  decide

/-- 95_test_vectors.md VA24: SUBCB RL1, RL2. -/
theorem test_subcb_VA24 :
    ends { withWords common [(0xFC02#24, 0x0001#16), (0xFC04#24, 0x0000#16)] with psw := 0x2#16 } [0x31#8, 0x24#8] 0x0202#16 0x0000#16
      [(0xFC02#24, 0x0000#16)] = true := by
  decide

/-- 95_test_vectors.md VA25: CPL R1. -/
theorem test_cpl_VA25 :
    ends (withWords common [(0xFC02#24, 0x00FF#16)]) [0x91#8, 0x10#8] 0x0202#16 0x0001#16
      [(0xFC02#24, 0xFF00#16)] = true := by
  decide

/-- 95_test_vectors.md VA26: CPLB RH1. -/
theorem test_cplb_VA26 :
    ends (withWords common [(0xFC02#24, 0x80FF#16)]) [0xB1#8, 0x30#8] 0x0202#16 0x0010#16
      [(0xFC02#24, 0x7FFF#16)] = true := by
  decide

/-- 95_test_vectors.md VA28: NEG R1. -/
theorem test_neg_VA28 :
    ends (withWords common [(0xFC02#24, 0x0000#16)]) [0x81#8, 0x10#8] 0x0202#16 0x0008#16
      [] = true := by
  decide

/-- 95_test_vectors.md VA29: NEGB RL1. -/
theorem test_negb_VA29 :
    ends (withWords common [(0xFC02#24, 0x0080#16)]) [0xA1#8, 0x20#8] 0x0202#16 0x0017#16
      [] = true := by
  decide

/-- 95_test_vectors.md VA31: MUL R1, R2. -/
theorem test_mul_VA31 :
    ends (withWords common [(0xFC02#24, 0x8000#16), (0xFC04#24, 0x8000#16)]) [0x0B#8, 0x12#8] 0x0202#16 0x0004#16
      [(0xFE0C#24, 0x4000#16)] = true := by
  decide

/-- 95_test_vectors.md VA34: MULU R1, R2. -/
theorem test_mulu_VA34 :
    ends (withWords common [(0xFC02#24, 0x0000#16), (0xFC04#24, 0xFFFF#16)]) [0x1B#8, 0x12#8] 0x0202#16 0x0008#16
      [] = true := by
  decide

/-- 95_test_vectors.md VA36: DIV R1. -/
theorem test_div_VA36 :
    ends { withWords common [(0xFC02#24, 0x0002#16)] with mdl := 0xFFF9#16 } [0x4B#8, 0x11#8] 0x0202#16 0x0001#16
      [(0xFE0C#24, 0xFFFF#16), (0xFE0E#24, 0xFFFD#16)] = true := by
  decide

/-- 95_test_vectors.md VA38: DIVU R1. -/
theorem test_divu_VA38 :
    ends { withWords common [(0xFC02#24, 0x0010#16)] with mdl := 0xFFFF#16 } [0x5B#8, 0x11#8] 0x0202#16 0x0000#16
      [(0xFE0C#24, 0x000F#16), (0xFE0E#24, 0x0FFF#16)] = true := by
  decide

/-- 95_test_vectors.md VA40: DIVL R1. -/
theorem test_divl_VA40 :
    ends { withWords common [(0xFC02#24, 0xFFFD#16)] with mdh := 0x0#16, mdl := 0xA#16 } [0x6B#8, 0x11#8] 0x0202#16 0x0001#16
      [(0xFE0C#24, 0x0001#16), (0xFE0E#24, 0xFFFD#16)] = true := by
  decide

/-- 95_test_vectors.md VA41: DIVLU R1. -/
theorem test_divlu_VA41 :
    ends { withWords common [(0xFC02#24, 0x0002#16)] with mdh := 0x1#16, mdl := 0x5#16 } [0x7B#8, 0x11#8] 0x0202#16 0x0001#16
      [(0xFE0E#24, 0x8002#16)] = true := by
  decide

/-- 95_test_vectors.md VL2: AND R1, #FF00h. -/
theorem test_and_VL2 :
    ends (withWords common [(0xFC02#24, 0x00FF#16)]) [0x66#8, 0xF1#8, 0x00#8, 0xFF#8] 0x0204#16 0x0008#16
      [(0xFC02#24, 0x0000#16)] = true := by
  decide

/-- 95_test_vectors.md VL4: ANDB RL1, RH1. -/
theorem test_andb_VL4 :
    ends (withWords common [(0xFC02#24, 0xFF0F#16)]) [0x61#8, 0x23#8] 0x0202#16 0x0000#16
      [] = true := by
  decide

/-- 95_test_vectors.md VL6: OR R1, R2. -/
theorem test_or_VL6 :
    ends (withWords common [(0xFC02#24, 0x0000#16), (0xFC04#24, 0x0000#16)]) [0x70#8, 0x12#8] 0x0202#16 0x0008#16
      [] = true := by
  decide

/-- 95_test_vectors.md VL8: ORB RL1, #80h. -/
theorem test_orb_VL8 :
    ends (withWords common [(0xFC02#24, 0x0001#16)]) [0x77#8, 0xF2#8, 0x80#8, 0x00#8] 0x0204#16 0x0011#16
      [(0xFC02#24, 0x0081#16)] = true := by
  decide

/-- 95_test_vectors.md VL10: XOR R1, #FFFFh. -/
theorem test_xor_VL10 :
    ends (withWords common [(0xFC02#24, 0x7FFF#16)]) [0x56#8, 0xF1#8, 0xFF#8, 0xFF#8] 0x0204#16 0x0001#16
      [(0xFC02#24, 0x8000#16)] = true := by
  decide

/-- 95_test_vectors.md VL11: XORB PSW, #FFh. -/
theorem test_xorb_VL11 :
    ends { common with psw := 0x8AA#16 } [0x57#8, 0x88#8, 0xFF#8, 0x00#8] 0x0204#16 0x0055#16
      [] = true := by
  decide

/-- 95_test_vectors.md VB2: BCLR FD00h.4. -/
theorem test_bclr_VB2 :
    ends (withWords common [(0xFD00#24, 0x0000#16)]) [0x4E#8, 0x00#8] 0x0202#16 0x0008#16
      [] = true := by
  decide

/-- 95_test_vectors.md VB4: BSET R1.3. -/
theorem test_bset_VB4 :
    ends (withWords common [(0xFC02#24, 0x0000#16)]) [0x3F#8, 0xF1#8] 0x0202#16 0x0008#16
      [(0xFC02#24, 0x0008#16)] = true := by
  decide

/-- 95_test_vectors.md VB7: BMOV FD02h.0, FD00h.4. -/
theorem test_bmov_VB7 :
    ends (withWords common [(0xFD00#24, 0x0010#16), (0xFD02#24, 0x0000#16)]) [0x4A#8, 0x00#8, 0x01#8, 0x40#8] 0x0204#16 0x0001#16
      [(0xFD02#24, 0x0001#16)] = true := by
  decide

/-- 95_test_vectors.md VB8: BMOVN FD00h.3, FD00h.3. -/
theorem test_bmovn_VB8 :
    ends (withWords common [(0xFD00#24, 0x0008#16)]) [0x3A#8, 0x00#8, 0x00#8, 0x33#8] 0x0204#16 0x0001#16
      [(0xFD00#24, 0x0000#16)] = true := by
  decide

/-- 95_test_vectors.md VB9: BAND FD02h.5, FD00h.0. -/
theorem test_band_VB9 :
    ends (withWords common [(0xFD00#24, 0x0000#16), (0xFD02#24, 0x0020#16)]) [0x6A#8, 0x00#8, 0x01#8, 0x05#8] 0x0204#16 0x0005#16
      [(0xFD02#24, 0x0000#16)] = true := by
  decide

/-- 95_test_vectors.md VB10: BOR FD02h.0, FD00h.0. -/
theorem test_bor_VB10 :
    ends (withWords common [(0xFD00#24, 0x0000#16), (0xFD02#24, 0x0000#16)]) [0x5A#8, 0x00#8, 0x01#8, 0x00#8] 0x0204#16 0x0008#16
      [] = true := by
  decide

/-- 95_test_vectors.md VB11: BXOR FD02h.0, FD00h.0. -/
theorem test_bxor_VB11 :
    ends (withWords common [(0xFD00#24, 0x0001#16), (0xFD02#24, 0x0001#16)]) [0x7A#8, 0x00#8, 0x01#8, 0x00#8] 0x0204#16 0x0006#16
      [(0xFD02#24, 0x0000#16)] = true := by
  decide

/-- 95_test_vectors.md VB12: BCMP FD02h.0, FD00h.0. -/
theorem test_bcmp_VB12 :
    ends (withWords common [(0xFD00#24, 0x0001#16), (0xFD02#24, 0x0000#16)]) [0x2A#8, 0x00#8, 0x01#8, 0x00#8] 0x0204#16 0x0005#16
      [] = true := by
  decide

/-- 95_test_vectors.md VB14: BFLDH FD00h, #F0h, #80h. -/
theorem test_bfldh_VB14 :
    ends (withWords common [(0xFD00#24, 0x1234#16)]) [0x1A#8, 0x00#8, 0x80#8, 0xF0#8] 0x0204#16 0x0001#16
      [(0xFD00#24, 0x8234#16)] = true := by
  decide

/-- 95_test_vectors.md VB15: BFLDL FD00h, #FFh, #00h. -/
theorem test_bfldl_VB15 :
    ends (withWords common [(0xFD00#24, 0x00FF#16)]) [0x0A#8, 0x00#8, 0xFF#8, 0x00#8] 0x0204#16 0x0008#16
      [(0xFD00#24, 0x0000#16)] = true := by
  decide

/-- 95_test_vectors.md VC2: CMP R1, R2. -/
theorem test_cmp_VC2 :
    ends (withWords common [(0xFC02#24, 0x0003#16), (0xFC04#24, 0x0005#16)]) [0x40#8, 0x12#8] 0x0202#16 0x0003#16
      [] = true := by
  decide

/-- 95_test_vectors.md VC7: CMPB RL1, #80h. -/
theorem test_cmpb_VC7 :
    ends (withWords common [(0xFC02#24, 0x007F#16)]) [0x47#8, 0xF2#8, 0x80#8, 0x00#8] 0x0204#16 0x0017#16
      [] = true := by
  decide

/-- 95_test_vectors.md VC9: CMPD1 R1, #0. -/
theorem test_cmpd1_VC9 :
    ends (withWords common [(0xFC02#24, 0x0000#16)]) [0xA0#8, 0x01#8] 0x0202#16 0x0008#16
      [(0xFC02#24, 0xFFFF#16)] = true := by
  decide

/-- 95_test_vectors.md VC11: CMPD2 R1, #4. -/
theorem test_cmpd2_VC11 :
    ends (withWords common [(0xFC02#24, 0x0004#16)]) [0xB0#8, 0x41#8] 0x0202#16 0x0008#16
      [(0xFC02#24, 0x0002#16)] = true := by
  decide

/-- 95_test_vectors.md VC12: CMPI1 R1, #FFFFh. -/
theorem test_cmpi1_VC12 :
    ends (withWords common [(0xFC02#24, 0xFFFF#16)]) [0x86#8, 0xF1#8, 0xFF#8, 0xFF#8] 0x0204#16 0x0008#16
      [(0xFC02#24, 0x0000#16)] = true := by
  decide

/-- 95_test_vectors.md VC13: CMPI2 R1, #0020h. -/
theorem test_cmpi2_VC13 :
    ends (withWords common [(0xFC02#24, 0x0010#16)]) [0x96#8, 0xF1#8, 0x20#8, 0x00#8] 0x0204#16 0x0003#16
      [(0xFC02#24, 0x0012#16)] = true := by
  decide

/-- 95_test_vectors.md VS2: SHL R1, #15. -/
theorem test_shl_VS2 :
    ends (withWords common [(0xFC02#24, 0x0001#16), (0xFC04#24, 0x0013#16)]) [0x5C#8, 0xF1#8] 0x0202#16 0x0001#16
      [(0xFC02#24, 0x8000#16)] = true := by
  decide

/-- 95_test_vectors.md VS6: SHR R1, #3. -/
theorem test_shr_VS6 :
    ends (withWords common [(0xFC02#24, 0x0004#16), (0xFC04#24, 0x0013#16)]) [0x7C#8, 0x31#8] 0x0202#16 0x000A#16
      [(0xFC02#24, 0x0000#16)] = true := by
  decide

/-- 95_test_vectors.md VS10: ASHR R1, #15. -/
theorem test_ashr_VS10 :
    ends (withWords common [(0xFC02#24, 0xFFFF#16), (0xFC04#24, 0x0013#16)]) [0xBC#8, 0xF1#8] 0x0202#16 0x0007#16
      [] = true := by
  decide

/-- 95_test_vectors.md VS14: ROL R1, #4. -/
theorem test_rol_VS14 :
    ends (withWords common [(0xFC02#24, 0x1234#16), (0xFC04#24, 0x0013#16)]) [0x1C#8, 0x41#8] 0x0202#16 0x0002#16
      [(0xFC02#24, 0x2341#16)] = true := by
  decide

/-- 95_test_vectors.md VS18: ROR R1, #2. -/
theorem test_ror_VS18 :
    ends (withWords common [(0xFC02#24, 0x0003#16), (0xFC04#24, 0x0013#16)]) [0x3C#8, 0x21#8] 0x0202#16 0x0007#16
      [(0xFC02#24, 0xC000#16)] = true := by
  decide

/-- 95_test_vectors.md VS22: PRIOR R1, R2. -/
theorem test_prior_VS22 :
    ends (withWords common [(0xFC02#24, 0xEEEE#16), (0xFC04#24, 0x8000#16)]) [0x2B#8, 0x12#8] 0x0202#16 0x0000#16
      [(0xFC02#24, 0x0000#16)] = true := by
  decide

/-- 95_test_vectors.md VM1: MOV R1, R2. -/
theorem test_mov_VM1 :
    ends (withWords common [(0xFC04#24, 0x8000#16)]) [0xF0#8, 0x12#8] 0x0202#16 0x0011#16
      [(0xFC02#24, 0x8000#16)] = true := by
  decide

/-- 95_test_vectors.md VM2: MOV R10, #5. -/
theorem test_mov_VM2 :
    ends common [0xE0#8, 0x5A#8] 0x0202#16 0x0000#16
      [(0xFC14#24, 0x0005#16)] = true := by
  decide

/-- 95_test_vectors.md VM9: MOV [-R1], R2. -/
theorem test_mov_VM9 :
    ends (withWords common [(0xFC02#24, 0xF602#16), (0xFC04#24, 0xBEEF#16)]) [0x88#8, 0x21#8] 0x0202#16 0x0001#16
      [(0xF600#24, 0xBEEF#16), (0xFC02#24, 0xF600#16)] = true := by
  decide

/-- 95_test_vectors.md VM10: MOV [R1], [R2]. -/
theorem test_mov_VM10 :
    ends (withWords common [(0xFC02#24, 0xF610#16), (0xFC04#24, 0xF600#16), (0xF600#24, 0x8000#16), (0xF610#24, 0x0000#16)]) [0xC8#8, 0x12#8] 0x0202#16 0x0011#16
      [(0xF610#24, 0x8000#16)] = true := by
  decide

/-- 95_test_vectors.md VM11: MOV [R1+], [R2]. -/
theorem test_mov_VM11 :
    ends (withWords common [(0xFC02#24, 0xF610#16), (0xFC04#24, 0xF600#16), (0xF600#24, 0x0000#16)]) [0xD8#8, 0x12#8] 0x0202#16 0x0008#16
      [(0xF610#24, 0x0000#16), (0xFC02#24, 0xF612#16)] = true := by
  decide

/-- 95_test_vectors.md VM20: MOVB RL1, RH1. -/
theorem test_movb_VM20 :
    ends (withWords common [(0xFC02#24, 0x1122#16)]) [0xF1#8, 0x23#8] 0x0202#16 0x0000#16
      [(0xFC02#24, 0x1111#16)] = true := by
  decide

/-- 95_test_vectors.md VM21: MOVB RL1, #0Fh. -/
theorem test_movb_VM21 :
    ends (withWords common [(0xFC02#24, 0xAA00#16)]) [0xE1#8, 0xF2#8] 0x0202#16 0x0000#16
      [(0xFC02#24, 0xAA0F#16)] = true := by
  decide

/-- 95_test_vectors.md VM26: MOVB [-R1], RL2. -/
theorem test_movb_VM26 :
    ends (withWords common [(0xFC02#24, 0xF602#16), (0xFC04#24, 0x00EF#16), (0xF600#24, 0x0000#16)]) [0x89#8, 0x41#8] 0x0202#16 0x0001#16
      [(0xF600#24, 0xEF00#16), (0xFC02#24, 0xF601#16)] = true := by
  decide

/-- 95_test_vectors.md VM27: MOVB [R1], [R2]. -/
theorem test_movb_VM27 :
    ends (withWords common [(0xFC02#24, 0xF611#16), (0xFC04#24, 0xF600#16), (0xF600#24, 0x0080#16), (0xF610#24, 0x0000#16)]) [0xC9#8, 0x12#8] 0x0202#16 0x0011#16
      [(0xF610#24, 0x8000#16)] = true := by
  decide

/-- 95_test_vectors.md VM28: MOVB [R1+], [R2]. -/
theorem test_movb_VM28 :
    ends (withWords common [(0xFC02#24, 0xF610#16), (0xFC04#24, 0xF601#16), (0xF600#24, 0x0000#16), (0xF610#24, 0xFFFF#16)]) [0xD9#8, 0x12#8] 0x0202#16 0x0008#16
      [(0xF610#24, 0xFF00#16), (0xFC02#24, 0xF611#16)] = true := by
  decide

/-- 95_test_vectors.md VM37: MOVBS R1, RL1. -/
theorem test_movbs_VM37 :
    ends (withWords common [(0xFC02#24, 0x007F#16)]) [0xD0#8, 0x21#8] 0x0202#16 0x0000#16
      [] = true := by
  decide

/-- 95_test_vectors.md VM41: MOVBZ R1, RH1. -/
theorem test_movbz_VM41 :
    ends (withWords common [(0xFC02#24, 0x00FF#16)]) [0xC0#8, 0x31#8] 0x0202#16 0x0008#16
      [(0xFC02#24, 0x0000#16)] = true := by
  decide

/-- 95_test_vectors.md VJ2: JMPR cc_Z, +3. -/
theorem test_jmpr_VJ2 :
    ends { common with psw := 0x8#16 } [0x2D#8, 0x03#8] 0x0208#16 0x0008#16
      [] = true := by
  decide

/-- 95_test_vectors.md VJ7: JMPA cc_NZ, 1000h. -/
theorem test_jmpa_VJ7 :
    ends { common with psw := 0x8#16 } [0xEA#8, 0x30#8, 0x00#8, 0x10#8] 0x0204#16 0x0008#16
      [] = true := by
  decide

/-- 95_test_vectors.md VJ9: JMPI cc_C, [R1]. -/
theorem test_jmpi_VJ9 :
    ends { withWords common [(0xFC02#24, 0x0500#16)] with psw := 0x2#16 } [0x9C#8, 0x81#8] 0x0500#16 0x0002#16
      [] = true := by
  decide

/-- 95_test_vectors.md VJ10: JMPS 1, 2000h. -/
theorem test_jmps_VJ10 :
    ends common [0xFA#8, 0x01#8, 0x00#8, 0x20#8] 0x2000#16 0x0000#16
      [(0xFE08#24, 0x0001#16)] = true := by
  decide

/-- 95_test_vectors.md VJ12: JB FD00h.3, -2. -/
theorem test_jb_VJ12 :
    ends (withWords common [(0xFD00#24, 0x0008#16)]) [0x8A#8, 0x00#8, 0xFE#8, 0x30#8] 0x0200#16 0x0000#16
      [] = true := by
  decide

/-- 95_test_vectors.md VJ13: JNB FD00h.3, +5. -/
theorem test_jnb_VJ13 :
    ends (withWords common [(0xFD00#24, 0x0008#16)]) [0x9A#8, 0x00#8, 0x05#8, 0x30#8] 0x0204#16 0x0000#16
      [] = true := by
  decide

/-- 95_test_vectors.md VJ15: JBC FD00h.3, +5. -/
theorem test_jbc_VJ15 :
    ends (withWords common [(0xFD00#24, 0x0000#16)]) [0xAA#8, 0x00#8, 0x05#8, 0x30#8] 0x0204#16 0x0008#16
      [] = true := by
  decide

/-- 95_test_vectors.md VJ17: JNBS FD00h.3, +5. -/
theorem test_jnbs_VJ17 :
    ends (withWords common [(0xFD00#24, 0x0008#16)]) [0xBA#8, 0x00#8, 0x05#8, 0x30#8] 0x0204#16 0x0001#16
      [] = true := by
  decide

/-- 95_test_vectors.md VJ19: CALLA cc_Z, 0300h. -/
theorem test_calla_VJ19 :
    ends common [0xCA#8, 0x20#8, 0x00#8, 0x03#8] 0x0204#16 0x0000#16
      [] = true := by
  decide

/-- 95_test_vectors.md VJ21: CALLI cc_Z, [R1]. -/
theorem test_calli_VJ21 :
    ends (withWords common [(0xFC02#24, 0x0500#16)]) [0xAB#8, 0x21#8] 0x0202#16 0x0000#16
      [] = true := by
  decide

/-- 95_test_vectors.md VJ23: CALLR -1. -/
theorem test_callr_VJ23 :
    ends common [0xBB#8, 0xFF#8] 0x0200#16 0x0000#16
      [(0xFBFE#24, 0x0202#16), (0xFE12#24, 0xFBFE#16)] = true := by
  decide

/-- 95_test_vectors.md VJ24: CALLS 2, 1000h. -/
theorem test_calls_VJ24 :
    ends common [0xDA#8, 0x02#8, 0x00#8, 0x10#8] 0x1000#16 0x0000#16
      [(0xFBFC#24, 0x0204#16), (0xFBFE#24, 0x0000#16), (0xFE08#24, 0x0002#16), (0xFE12#24, 0xFBFC#16)] = true := by
  decide

/-- 95_test_vectors.md VJ25: PCALL R1, 0300h. -/
theorem test_pcall_VJ25 :
    ends (withWords common [(0xFC02#24, 0x8000#16)]) [0xE2#8, 0xF1#8, 0x00#8, 0x03#8] 0x0300#16 0x0011#16
      [(0xFBFC#24, 0x0204#16), (0xFBFE#24, 0x8000#16), (0xFE12#24, 0xFBFC#16)] = true := by
  decide

/-- 95_test_vectors.md VK2: PUSH R1. -/
theorem test_push_VK2 :
    ends (withWords common [(0xFC02#24, 0x0000#16)]) [0xEC#8, 0xF1#8] 0x0202#16 0x0008#16
      [(0xFBFE#24, 0x0000#16), (0xFE12#24, 0xFBFE#16)] = true := by
  decide

/-- 95_test_vectors.md VK5: POP PSW. -/
theorem test_pop_VK5 :
    ends { withWords common [(0xFBFE#24, 0x081F#16)] with sp := 0xFBFE#16 } [0xFC#8, 0x88#8] 0x0202#16 0x081F#16
      [(0xFE12#24, 0xFC00#16)] = true := by
  decide

/-- 95_test_vectors.md VK8: SCXT R1, F600h. -/
theorem test_scxt_VK8 :
    ends (withWords common [(0xFC02#24, 0x1111#16), (0xF600#24, 0x2222#16)]) [0xD6#8, 0xF1#8, 0x00#8, 0xF6#8] 0x0204#16 0x0000#16
      [(0xFBFE#24, 0x1111#16), (0xFC02#24, 0x2222#16), (0xFE12#24, 0xFBFE#16)] = true := by
  decide

/-- 95_test_vectors.md VK9: RET. -/
theorem test_ret_VK9 :
    ends { withWords common [(0xFBFE#24, 0x0204#16)] with sp := 0xFBFE#16 } [0xCB#8, 0x00#8] 0x0204#16 0x0000#16
      [(0xFE12#24, 0xFC00#16)] = true := by
  decide

/-- 95_test_vectors.md VK10: RETS. -/
theorem test_rets_VK10 :
    ends { withWords common [(0xFBFC#24, 0x1000#16), (0xFBFE#24, 0xAB02#16)] with sp := 0xFBFC#16 } [0xDB#8, 0x00#8] 0x1000#16 0x0000#16
      [(0xFE08#24, 0x0002#16), (0xFE12#24, 0xFC00#16)] = true := by
  decide

/-- 95_test_vectors.md VK11: RETP R1. -/
theorem test_retp_VK11 :
    ends { withWords common [(0xFBFC#24, 0x0204#16), (0xFBFE#24, 0x8000#16)] with sp := 0xFBFC#16 } [0xEB#8, 0xF1#8] 0x0204#16 0x0011#16
      [(0xFC02#24, 0x8000#16), (0xFE12#24, 0xFC00#16)] = true := by
  decide

/-- 95_test_vectors.md VK13: RETI. -/
theorem test_reti_VK13 :
    ends { withWords common [(0xFBFC#24, 0x0202#16), (0xFBFE#24, 0x0800#16)] with sp := 0xFBFC#16, syscon := 0x800#16, psw := 0xF001#16 } [0xFB#8, 0x88#8] 0x0202#16 0x0800#16
      [(0xFE12#24, 0xFC00#16)] = true := by
  decide

/-- 95_test_vectors.md VX1: NOP. -/
theorem test_nop_VX1 :
    ends { common with psw := 0xF#16 } [0xCC#8, 0x00#8] 0x0202#16 0x000F#16
      [] = true := by
  decide

/-- 95_test_vectors.md VX2: SRVWDT. -/
theorem test_srvwdt_VX2 :
    ends { common with psw := 0xF#16 } [0xA7#8, 0x58#8, 0xA7#8, 0xA7#8] 0x0204#16 0x000F#16
      [] = true := by
  decide

/-- 95_test_vectors.md VX4: EINIT. -/
theorem test_einit_VX4 :
    ends { common with psw := 0xF#16 } [0xB5#8, 0x4A#8, 0xB5#8, 0xB5#8] 0x0204#16 0x000F#16
      [] = true := by
  decide

/-- 95_test_vectors.md VX5: IDLE. -/
theorem test_idle_VX5 :
    ends { common with psw := 0xF#16 } [0x87#8, 0x78#8, 0x87#8, 0x87#8] 0x0204#16 0x000F#16
      [] = true := by
  decide

/-- 95_test_vectors.md VX6: PWRDN. -/
theorem test_pwrdn_VX6 :
    ends { common with psw := 0xF#16 } [0x97#8, 0x68#8, 0x97#8, 0x97#8] 0x0204#16 0x000F#16
      [] = true := by
  decide

/-- 95_test_vectors.md VX7: DISWDT with a wrong 4th byte. -/
theorem test_diswdt_VX7 :
    ends { common with psw := 0xF#16 } [0xA5#8, 0x5A#8, 0xA5#8, 0x00#8] 0x0028#16 0xF00F#16
      [(0xFBFA#24, 0x0200#16), (0xFBFC#24, 0x0000#16), (0xFBFE#24, 0x000F#16), (0xFE12#24, 0xFBFA#16), (0xFFAC#24, 0x0008#16)] = true := by
  decide

/-- 95_test_vectors.md VE3: MOV [-R1], R2. -/
theorem test_trap_VE3 :
    ends (withWords common [(0xFC02#24, 0xF603#16), (0xFC04#24, 0x2222#16)]) [0x88#8, 0x21#8] 0x0028#16 0xF000#16
      [(0xFBFA#24, 0x0202#16), (0xFBFC#24, 0x0000#16), (0xFBFE#24, 0x0000#16), (0xFC02#24, 0xF601#16), (0xFE12#24, 0xFBFA#16), (0xFFAC#24, 0x0004#16)] = true := by
  decide

/-- 95_test_vectors.md VE5: undefined opcode 3Bh. -/
theorem test_trap_VE5 :
    ends common [0x3B#8, 0x00#8] 0x0028#16 0xF000#16
      [(0xFBFA#24, 0x0200#16), (0xFBFC#24, 0x0000#16), (0xFBFE#24, 0x0000#16), (0xFE12#24, 0xFBFA#16), (0xFFAC#24, 0x0080#16)] = true := by
  decide

/-- 95_test_vectors.md VE8: SRST with a wrong 4th byte. -/
theorem test_trap_VE8 :
    ends common [0xB7#8, 0x48#8, 0xB7#8, 0x00#8] 0x0028#16 0xF000#16
      [(0xFBFA#24, 0x0200#16), (0xFBFC#24, 0x0000#16), (0xFBFE#24, 0x0000#16), (0xFE12#24, 0xFBFA#16), (0xFFAC#24, 0x0008#16)] = true := by
  decide

/-- 95_test_vectors.md VE9: MOV R2, [R1]. -/
theorem test_trap_VE9 :
    ends { withWords common [(0xFC02#24, 0xF601#16), (0xFC04#24, 0x2222#16)] with syscon := 0x800#16 } [0xA8#8, 0x21#8] 0x0028#16 0xF000#16
      [(0xFBFC#24, 0x0202#16), (0xFBFE#24, 0x0000#16), (0xFE12#24, 0xFBFC#16), (0xFFAC#24, 0x0004#16)] = true := by
  decide

/-! The sequence instructions and the resets: start and end from the rules named -/

/-- 48_system_control.md R331, R332, R333, R335: the counter after ATOMIC #2, EXTR #1, EXTP #3, #1 and EXTS #1, #1. -/
theorem test_sequences_begin :
    ([[0xD1#8, 0x10#8], [0xD1#8, 0x80#8], [0xD7#8, 0x40#8, 0x03#8, 0x00#8], [0xD7#8, 0x00#8, 0x01#8, 0x00#8]].map
      fun bs => match step (placed common bs) with
        | .next t => some (t.extCount, t.extEsfr, t.extOvr)
        | _ => none) =
      [some (2, false, .none), some (1, true, .none), some (1, false, .page 3#10), some (1, false, .seg 1#8)] := by
  decide

/-- 48_system_control.md R333 to R336: `DC 42` with R2 = FC03h and `DC 82` with R2 = FF01h. -/
theorem test_sequences_by_register :
    ([([0xDC#8, 0x42#8], 0xFC03#16), ([0xDC#8, 0x82#8], 0xFF01#16)].map
      fun p => match step (placed (withWords common [(0xFC04#24, p.2)]) p.1) with
        | .next t => some (t.extCount, t.extEsfr, t.extOvr)
        | _ => none) = [some (1, false, .page 3#10), some (1, true, .seg 1#8)] := by
  decide

/-- 48_system_control.md R321: SRST leaves memory and starts at 00'0000h with the reset values. -/
theorem test_srst :
    ends { common with psw := 0xF81F#16, csp := 1#8, dpp0 := 7#10, sp := 0xF000#16 } [0xB7#8, 0x48#8, 0xB7#8, 0xB7#8]
      0x0000#16 0x0000#16 [(0xFE12#24, 0xFC00#16), (0xFE00#24, 0#16), (0xFE08#24, 0#16), (0xFC02#24, 0#16)] = true := by
  decide

/-- 48_system_control.md R337: an instruction inside a sequence of one ends it. -/
theorem test_sequence_ends :
    (match step (placed { common with extCount := 1, extEsfr := true, extOvr := .page 3#10 } [0xCC#8, 0x00#8]) with
      | .next t => some (t.extCount, t.extEsfr, t.extOvr)
      | _ => none) = some (0, false, .none) := by
  decide

/-- 40_arithmetic.md R157, R162: a division by zero goes on to the next instruction with no trap pending. -/
theorem test_div_by_zero :
    (match step (placed { common with mdl := 7#16, psw := 0x0012#16 } [0x4B#8, 0x11#8]) with
      | .next t => some (t.ip, t.csp, t.tfr)
      | _ => none) = some (0x0202#16, 0#8, 0#16) := by
  decide

/-- 70_reset_and_hazards.md R400, R405; 20_memory.md R71; 30_encoding.md R114; 10_state.md R28: the cases that the spec
has the model refuse. -/
theorem test_refusals :
    refuses { common with hazOut := { Hazards.clear with cp := true } } [0x00#8, 0x12#8] .hazardCp = true ∧
    refuses common [0xF6#8, 0xF1#8, 0x08#8, 0x02#8] (.codeWindow 0x0208) = true ∧
    refuses common [0x98#8, 0x11#8] .sameRegister = true ∧ refuses common [0x4B#8, 0x12#8] (.reservedEncoding 0x4B) = true ∧
    refuses { common with csp := 1#8, ip := 0xFFFE#16 } [0xE6#8, 0xF1#8] .straddlingFetch = true := by
  decide

/-! Witnesses: states and operands that meet the hypotheses of each obligation -/

/-- R1 = 9000h, R2 = 3, R3 = 5, R4 = 9010h, R5 = FFFFh, R6 = 8000h, R7 = 1, the other GPRs 0; words behind the pointers,
in the bit space and on the stack; MDH:MDL = 1:7, C set. -/
def demo : State :=
  { withWords common [(0xFC02#24, 0x9000#16), (0xFC04#24, 0x0003#16), (0xFC06#24, 0x0005#16), (0xFC08#24, 0x9010#16),
      (0xFC0A#24, 0xFFFF#16), (0xFC0C#24, 0x8000#16), (0xFC0E#24, 0x0001#16), (0x9000#24, 0x1111#16),
      (0x900E#24, 0x3333#16), (0x9010#24, 0x2222#16), (0xFD00#24, 0x00F0#16), (0xFD02#24, 0x0001#16),
      (0xFBFA#24, 0x0300#16), (0xFBFC#24, 0x0002#16), (0xFBFE#24, 0x0800#16)] with
    mdl := 0x0007#16, mdh := 0x0001#16, psw := 0x0002#16 }

/-- The same with three words on the stack. -/
def stacked : State := { demo with sp := 0xFBFA#16 }

/-- The same with segmentation disabled. -/
def flat (s : State) : State := { s with syscon := 0x0800#16 }

theorem witness_DecodeInvertsEncode :
    (Instr.addRwRw 1#4 2#4).wf = true ∧ (Instr.protFault87 0x78#8 0x87#8 0x86#8).wf = true := by decide

/-- The state after reset with a NOP at its first address. -/
def nopState : State := placed State.reset [0xCC#8, 0x00#8]

theorem witness_StepKeepsInvariant : Inv nopState ∧ (match step nopState with
      | .next _ => true
      | _ => false) = true :=
  ⟨⟨by decide, by decide, by decide, by decide, by decide, by decide, by decide, by decide⟩, by decide⟩

theorem witness_StepRunsDecodedInstruction_open :
    CodeAt (placed demo [0x00#8, 0x12#8]) (.addRwRw 1#4 2#4) ∧ demo.inputs = [] ∧ demo.run = .running ∧
    isOdd demo.cp = false ∧ demo.cp.toNat + 31 ≤ 0xFFFF ∧
    demo.retrapB = false ∧ isOdd demo.ip = false ∧ highestClassA demo = none ∧ (arbitrate demo).isNone = true ∧
    demo.par.endAddr ≠ some (codeAddr demo 0#16) :=
  ⟨⟨0x00#8, 0x12#8, by decide, by decide, Or.inl ⟨by decide, by decide⟩⟩, by decide⟩

theorem witness_StepRunsDecodedInstruction_in_sequence_at_segment_end :
    CodeAt (placed { demo with ip := 0xEFFC#16, extCount := 1 } [0xE6#8, 0xF1#8, 0x34#8, 0x12#8])
      (.movRegImm 0xF1#8 0x1234#16) ∧ ({ demo with ip := 0xEFFC#16, extCount := 1 } : State).extCount ≠ 0 :=
  ⟨⟨0xE6#8, 0xF1#8, by decide, by decide,
    Or.inr ⟨by decide, by decide, 0x34#8, 0x12#8, by decide, by decide, by decide⟩⟩, by decide⟩

/-- A bank that crosses FFFFh, and the highest one that does not. -/
theorem witness_StepRunsDecodedInstruction_bank :
    0xFFFF < (0xFFE2#16 : Word).toNat + 31 ∧ isOdd (0xFC01#16 : Word) = true ∧ (0xFFE0#16 : Word).toNat + 31 ≤ 0xFFFF ∧
    (match step (placed { demo with cp := 0xFFE2#16 } [0xCC#8, 0x00#8]) with
      | .refused .badContextPointer => true
      | _ => false) = true := by decide

theorem witness_SequenceCounts :
    startsSequence (.atomic 1#2) = true ∧ startsSequence .nop = false ∧ ({ demo with extCount := 1 } : State).extCount = 1 ∧
    2 ≤ ({ demo with extCount := 2 } : State).extCount := by decide

/-- A GPR after a write of CP; the highest bank, and the bank above it and an odd one, which are refused; `reg` and `bitoff`
at each boundary of their ranges. -/
theorem witness_ShortAddresses :
    ({ demo with hazIn := { Hazards.clear with cp := true } } : State).hazIn.cp = true ∧
    ({ demo with cp := 0xFFE0#16 } : State).hazIn.cp = false ∧ isOdd (0xFFE0#16 : Word) = false ∧
    (0xFFE0#16 : Word).toNat + 31 ≤ 0xFFFF ∧ 0xFFFF < (0xFFE2#16 : Word).toNat + 31 ∧ isOdd (0xFC01#16 : Word) = true ∧
    (0x7F#8 : Byte).toNat ≤ 0x7F ∧ 0x80 ≤ (0x80#8 : Byte).toNat ∧
    (0xEF#8 : Byte).toNat ≤ 0xEF ∧ 0xF0 ≤ (0xF0#8 : Byte).toNat := by decide

theorem test_short_address_boundaries :
    [0x00#8, 0xEF#8, 0xF0#8, 0xFF#8].map (shortLoc .word { demo with cp := 0xFFE0#16 }) =
      [some 0xFE00#24, some 0xFFDE#24, some 0xFFE0#24, some 0xFFFE#24] ∧
    [0x00#8, 0x7F#8, 0x80#8, 0xEF#8, 0xF0#8].map (bitLoc { demo with extEsfr := true }) =
      [some 0xFD00#24, some 0xFDFE#24, some 0xF100#24, some 0xF1DE#24, some 0xFC00#24] := by decide

/-- A long address at each end of the four ranges, in each mode. -/
theorem witness_LongAddresses :
    demo.extOvr = .none ∧
    ([0x0000#16, 0x3FFF#16, 0x4000#16, 0x7FFF#16, 0x8000#16, 0xBFFF#16, 0xC000#16, 0xFFFF#16].all
      fun a => !dppHazard demo (a.extractLsb' 14 2)) = true ∧
    dppHazard { demo with hazIn := { Hazards.clear with dpp2 := true } } ((0x8000#16 : Word).extractLsb' 14 2) = true ∧
    dppHazard { demo with hazIn := { Hazards.clear with dpp2 := true } } ((0x7FFF#16 : Word).extractLsb' 14 2) = false ∧
    ({ demo with extOvr := .page 3#10 } : State).extOvr = .page 3#10 ∧
    ({ demo with extOvr := .seg 1#8 } : State).extOvr = .seg 1#8 := by decide

theorem test_long_address_boundaries :
    [0x3FFF#16, 0x4000#16, 0x7FFF#16, 0x8000#16, 0xBFFF#16, 0xC000#16].map
        (longLoc { demo with dpp0 := 8#10, dpp1 := 9#10, dpp2 := 10#10, dpp3 := 11#10 }) =
      [some 0x023FFF#24, some 0x024000#24, some 0x027FFF#24, some 0x028000#24, some 0x02BFFF#24, some 0x02C000#24] ∧
    longLoc { demo with extOvr := .page 3#10 } 0x4000#16 = some 0x00C000#24 ∧
    longLoc { demo with extOvr := .seg 1#8 } 0x8000#16 = some 0x018000#24 := by decide

/-- The last byte of the prefetch window after 0202h, and the word whose high byte is its first. -/
theorem witness_StoreThenLoad :
    place demo 0x009000#24 = .ram ∧ (poke .word demo 0x0202#16 0x009000#24 0x1234#16).isSome = true ∧
    place demo 0xFFFFFF#24 = .ram ∧ (poke .byte demo 0x0202#16 0xFFFFFF#24 0x12#8).isSome = true ∧
    (0x000211#24 : Addr).extractLsb' 16 8 = demo.csp ∧
    ((0x000211#24 : Addr).extractLsb' 0 16 - 0x0202#16).toNat < demo.par.prefetchWindow ∧
    ¬ ((0x000212#24 : Addr).extractLsb' 0 16 - 0x0202#16).toNat < demo.par.prefetchWindow ∧
    isOdd (0x000202#24 : Addr) = false ∧
    ((0x000202#24 : Addr).extractLsb' 0 16 - 0x0202#16).toNat < demo.par.prefetchWindow := by decide

/-- The default parameters describe a machine. -/
theorem default_params_legal : Params.default.Legal :=
  ⟨by decide, fun r => by cases r <;> rfl, by decide, by decide⟩

/-- Every register in each way of writing it; `reg` names all of those below 00'FFE0h. -/
theorem witness_RegisterWrites :
    demo.par = Params.default ∧
    (allCpuRegs.all fun r => (poke .word demo 0x0202#16 (sfrAddr demo.par.sfr r) 0x0000#16).isSome &&
      (poke .byte demo 0x0202#16 (sfrAddr demo.par.sfr r) 0x00#8).isSome &&
      (poke .byte demo 0x0202#16 (sfrAddr demo.par.sfr r + 1) 0x00#8).isSome &&
      (pokeLoc .byte (.short 0xEF#8) demo 0x0202#16 (sfrAddr demo.par.sfr r) 0x00#8).isSome &&
      ([Loc.gpr 0#4, Loc.gpr 15#4, Loc.short 0xF0#8].all fun l =>
        (pokeLoc .byte l demo 0x0202#16 (sfrAddr demo.par.sfr r) 0x00#8).isSome &&
        (pokeLoc .byte l demo 0x0202#16 (sfrAddr demo.par.sfr r + 1) 0x00#8).isSome) &&
      !beyondBits demo (sfrAddr demo.par.sfr r)) = true ∧
    ({ demo with initDone := true } : State).initDone = true ∧
    (0x8000#16 : Word) &&& tfrMask demo.par.traps &&& ~~~demo.tfr ≠ 0#16 := by decide

/-- 10_state.md R22, 40_arithmetic.md R161: with CP = FF10h, RL0 is the low byte of the PSW; MOVB RL0, #5 keeps the high
byte, through `Rb` and through `reg`. -/
theorem test_byte_gpr_on_psw :
    ends { common with cp := 0xFF10#16, psw := 0x0800#16 } [0xE1#8, 0x50#8] 0x0202#16 0x0805#16 [] = true ∧
    ends { common with cp := 0xFF10#16, psw := 0x0800#16 } [0xE7#8, 0xF0#8, 0x05#8, 0x00#8] 0x0204#16 0x0805#16 [] =
      true := by
  decide

/-- 47_stack_return.md R305: RETI with SP = FE04h pops DPP2 into IP, DPP3 into CSP and the new CSP into the PSW. -/
theorem test_reti_csp_before_psw :
    ends { common with sp := 0xFE04#16, stkun := 0xFE0A#16, dpp2 := 0x300#10, dpp3 := 0x005#10 } [0xFB#8, 0x88#8]
      0x0300#16 0x0005#16 [(0xFE08#24, 0x0005#16), (0xFE12#24, 0xFE0A#16)] = true := by
  decide

/-- 20_memory.md R63, decision D23: MOVB of 12h to MDC holding ABCDh, through `reg` and through `mem` at either byte. -/
theorem test_byte_to_sfr :
    ends { common with mdc := 0xABCD#16, dpp3 := 3#10 } [0xE7#8, 0x87#8, 0x12#8, 0x00#8] 0x0204#16 0x0000#16
      [(0xFF0E#24, 0x0012#16)] = true ∧
    ends { withWords common [(0xFC02#24, 0x0012#16)] with mdc := 0xABCD#16 } [0xF7#8, 0xF2#8, 0x0E#8, 0xFF#8]
      0x0204#16 0x0000#16 [(0xFF0E#24, 0xAB12#16)] = true ∧
    ends { withWords common [(0xFC02#24, 0x0012#16)] with mdc := 0xABCD#16 } [0xF7#8, 0xF2#8, 0x0F#8, 0xFF#8]
      0x0204#16 0x0000#16 [(0xFF0E#24, 0x12CD#16)] = true := by
  decide

/-- 20_memory.md R69, 10_state.md R24: MOV [R1+], [R2] whose store writes CP increments the pointer in the bank CP then
names. -/
theorem test_post_increment_after_cp :
    ends (withWords common [(0xFC02#24, 0xFE10#16), (0xFC04#24, 0x9000#16), (0x9000#24, 0xFC40#16), (0xFC42#24, 0#16)])
      [0xD8#8, 0x12#8] 0x0202#16 0x0001#16 [(0xFC02#24, 0xFE10#16), (0xFC42#24, 0xFE12#16)] = true := by
  decide

/-- ADDC R2, R3 with C set and ADDB RL1, #7. -/
theorem witness_AddResult :
    demo.flags.c = true ∧ sourceVal .word demo (AluForm.rr 2#4 3#4).src = some 5#16 ∧
    operandLoc .word demo (AluForm.rr 2#4 3#4).dst = some 0xFC04#24 ∧ peek .word demo 0xFC04#24 = some 3#16 ∧
    (pokeLoc .word (.gpr 2#4) demo 0x0202#16 0xFC04#24 9#16).isSome = true ∧
    sourceVal .byte demo (AluForm.imm3 2#4 7#3).src = some 7#8 ∧
    operandLoc .byte demo (AluForm.imm3 2#4 7#3).dst = some 0xFC02#24 ∧ peek .byte demo 0xFC02#24 = some 0#8 ∧
    (pokeLoc .byte (.gpr 2#4) demo 0x0202#16 0xFC02#24 7#8).isSome = true ∧
    operandLoc .byte demo (AluForm.regImm 0x87#8 7#16).dst = some 0xFF0E#24 ∧ peek .byte demo 0xFF0E#24 = some 0#8 ∧
    (pokeLoc .byte (.short 0x87#8) demo 0x0204#16 0xFF0E#24 7#8).isSome = true := by decide

/-- SUBC 9000h, R2 with C set, and CMP R2, R3 (whose operands witness_CompareResult shows too). -/
theorem witness_SubResult :
    demo.flags.c = true ∧ sourceVal .word demo (AluForm.memReg 0x9000#16 0xF2#8).src = some 3#16 ∧
    operandLoc .word demo (AluForm.memReg 0x9000#16 0xF2#8).dst = some 0x9000#24 ∧
    peek .word demo 0x9000#24 = some 0x1111#16 ∧
    (pokeLoc .word (.long 0x9000#16) demo 0x0204#16 0x9000#24 (0x1111#16 - 3#16 - 1#16)).isSome = true ∧
    cmpInstr .word (.rr 2#4 3#4) = some (.cmpRwRw 2#4 3#4) ∧ sourceVal .word demo (AluForm.rr 2#4 3#4).src = some 5#16 ∧
    sourceVal .word demo (.loc (AluForm.rr 2#4 3#4).dst) = some 3#16 := by decide

/-- AND, OR and XOR of R5 and R1 behind it. -/
theorem witness_LogicResult :
    sourceVal .word demo (AluForm.ind 5#4 1#2).src = some 0x1111#16 ∧
    operandLoc .word demo (AluForm.ind 5#4 1#2).dst = some 0xFC0A#24 ∧ peek .word demo 0xFC0A#24 = some 0xFFFF#16 ∧
    (pokeLoc .word (.gpr 5#4) demo 0x0202#16 0xFC0A#24 (0xFFFF#16 &&& 0x1111#16)).isSome = true ∧
    (pokeLoc .word (.gpr 5#4) demo 0x0202#16 0xFC0A#24 (0xFFFF#16 ||| 0x1111#16)).isSome = true ∧
    (pokeLoc .word (.gpr 5#4) demo 0x0202#16 0xFC0A#24 (0xFFFF#16 ^^^ 0x1111#16)).isSome = true := by decide

/-- ADD R2, [R1+]. -/
theorem witness_PostIncrementResult :
    clashes .word 2#4 ((1#2 : PtrNum).setWidth 4) = false ∧ gprVal .word demo 1#4 = some 0x9000#16 ∧
    longLoc demo 0x9000#16 = some 0x9000#24 ∧
    peek .word demo 0x9000#24 = some 0x1111#16 ∧ gprLoc .word demo 2#4 = some 0xFC04#24 ∧
    peek .word demo 0xFC04#24 = some 3#16 ∧
    ((pokeLoc .word (.gpr 2#4) demo 0x0202#16 0xFC04#24 (aluResult .add demo.flags 3#16 0x1111#16)).bind fun u =>
      pokePtr (setFlagsFor 0xFC04#24 (aluFlags .add demo.flags 3#16 0x1111#16) u) 0x0202#16 1#4 0x9002#16).isSome =
      true := by decide

theorem witness_ComplementNegateResult :
    gprLoc .word demo 2#4 = some 0xFC04#24 ∧ peek .word demo 0xFC04#24 = some 3#16 ∧
    (pokeLoc .word (.gpr 2#4) demo 0x0202#16 0xFC04#24 (~~~3#16)).isSome = true ∧
    (pokeLoc .word (.gpr 2#4) demo 0x0202#16 0xFC04#24 (-3#16)).isSome = true := by decide

theorem witness_MultiplyResult :
    gprVal .word demo 5#4 = some 0xFFFF#16 ∧ gprVal .word demo 2#4 = some 3#16 := by decide

/-- DIV R7 with MDL = 8000h (the lowest quotient) and with MDL = FFFFh by 2 when SDIV rounds down, DIVL R6, DIVU R2 and
DIVLU R6. -/
theorem witness_DivideResult :
    gprVal .word { demo with mdl := 0x8000#16 } 7#4 = some 1#16 ∧ (1#16 : Word) ≠ 0 ∧ demo.par.sdiv = .towardZero ∧
    ({ demo with par := { demo.par with sdiv := .down } } : State).par.sdiv = .down ∧
    (0xFFFF#16 : Word).toInt.fdiv (3#16 : Word).toInt = -1 ∧ (0xFFFF#16 : Word).toInt.fmod (3#16 : Word).toInt = 2 ∧
    -32768 ≤ (0x8000#16 : Word).toInt.tdiv (1#16 : Word).toInt ∧ (0x8000#16 : Word).toInt.tdiv (1#16 : Word).toInt ≤ 32767 ∧
    gprVal .word demo 6#4 = some 0x8000#16 ∧
    -32768 ≤ (demo.mdh ++ demo.mdl).toInt.tdiv (0x8000#16 : Word).toInt ∧
    (demo.mdh ++ demo.mdl).toInt.tdiv (0x8000#16 : Word).toInt ≤ 32767 ∧
    demo.mdl.toNat / (0x8000#16 : Word).toNat ≤ 0xFFFF ∧
    (demo.mdh ++ demo.mdl).toNat / (0x8000#16 : Word).toNat ≤ 0xFFFF := by decide

/-- 40_arithmetic.md R157, decision D29: -7 DIV 3 under the two roundings of SDIV. -/
theorem test_div_roundings :
    ends { withWords common [(0xFC02#24, 3#16)] with mdl := 0xFFF9#16 } [0x4B#8, 0x11#8] 0x0202#16 0x0001#16
      [(0xFE0E#24, 0xFFFE#16), (0xFE0C#24, 0xFFFF#16)] = true ∧
    ends { withWords common [(0xFC02#24, 3#16)] with mdl := 0xFFF9#16, par := { Params.default with sdiv := .down } }
      [0x4B#8, 0x11#8] 0x0202#16 0x0001#16 [(0xFE0E#24, 0xFFFD#16), (0xFE0C#24, 0x0002#16)] = true := by
  decide

/-- A zero divisor, -32768 divided by -1, and a DIVLU whose quotient is 10007h. -/
theorem witness_DivideOverflow :
    gprVal .word demo 0#4 = some 0#16 ∧
    gprVal .word { demo with mdl := 0x8000#16 } 5#4 = some 0xFFFF#16 ∧
    32767 < (0x8000#16 : Word).toInt.tdiv (0xFFFF#16 : Word).toInt ∧ gprVal .word demo 7#4 = some 1#16 ∧
    0xFFFF < ((demo.mdh ++ demo.mdl).toNat : Int) / ((1#16 : Word).toNat : Int) := by decide

theorem witness_SameRegisterRefused :
    (1#4 : RegNum).toNat = (1#2 : PtrNum).toNat ∧ (3#4 : RegNum).toNat / 2 = (1#2 : PtrNum).toNat ∧
    (15#4 : RegNum).toNat / 2 = (7#4 : RegNum).toNat := by decide

/-- BSET FD00h.3. -/
theorem witness_BitSetClearResult :
    bitLoc demo 0x00#8 = some 0xFD00#24 ∧ peek .word demo 0xFD00#24 = some 0x00F0#16 ∧
    (∀ k < 16, (0x00F8#16 : Word).getLsbD k = if k = (3#4 : BitPos).toNat then true else (0x00F0#16 : Word).getLsbD k) ∧
    (poke .word demo 0x0202#16 0xFD00#24 0x00F8#16).isSome = true := by decide

/-- BMOV FD02h.15, FD00h.4. -/
theorem witness_BitMoveResult :
    bitWordVal demo 0x00#8 = some 0x00F0#16 ∧ bitLoc demo 0x01#8 = some 0xFD02#24 ∧
    peek .word demo 0xFD02#24 = some 0x0001#16 ∧
    (∀ k < 16, (0x8001#16 : Word).getLsbD k = if k = (15#4 : BitPos).toNat then
      (0x00F0#16 : Word).getLsbD (4#4 : BitPos).toNat != false else (0x0001#16 : Word).getLsbD k) ∧
    (poke .word demo 0x0204#16 0xFD02#24 0x8001#16).isSome = true := by decide

/-- BOR FD02h.15, FD00h.4. -/
theorem witness_BitLogicResult :
    bitWordVal demo 0x00#8 = some 0x00F0#16 ∧ bitLoc demo 0x01#8 = some 0xFD02#24 ∧
    peek .word demo 0xFD02#24 = some 0x0001#16 ∧
    (∀ k < 16, (0x8001#16 : Word).getLsbD k = if k = (15#4 : BitPos).toNat then
      ((0x0001#16 : Word).getLsbD (15#4 : BitPos).toNat || (0x00F0#16 : Word).getLsbD (4#4 : BitPos).toNat)
      else (0x0001#16 : Word).getLsbD k) ∧
    (poke .word demo 0x0204#16 0xFD02#24 0x8001#16).isSome = true := by decide

/-- BFLDL and BFLDH FD00h, mask 0Fh, data 0Ah. -/
theorem witness_BitFieldResult :
    bitLoc demo 0x00#8 = some 0xFD00#24 ∧ peek .word demo 0xFD00#24 = some 0x00F0#16 ∧
    (0x00F0#16 : Word).extractLsb' 8 8 ++ ((0x00F0#16 : Word).extractLsb' 0 8 &&& ~~~0x0F#8 ||| 0x0A#8) = 0x00FA#16 ∧
    ((0x00F0#16 : Word).extractLsb' 8 8 &&& ~~~0x0F#8 ||| 0x0A#8) ++ (0x00F0#16 : Word).extractLsb' 0 8 = 0x0AF0#16 ∧
    (poke .word demo 0x0204#16 0xFD00#24 0x00FA#16).isSome = true ∧
    (poke .word demo 0x0204#16 0xFD00#24 0x0AF0#16).isSome = true := by decide

/-- CMP R2, R3 and CMP R2, [R1+]. -/
theorem witness_CompareResult :
    cmpInstr .word (.rr 2#4 3#4) = some (.cmpRwRw 2#4 3#4) ∧
    sourceVal .word demo (AluForm.rr 2#4 3#4).src = some 5#16 ∧
    sourceVal .word demo (.loc (AluForm.rr 2#4 3#4).dst) = some 3#16 ∧
    clashes .word 2#4 ((1#2 : PtrNum).setWidth 4) = false ∧ gprVal .word demo 1#4 = some 0x9000#16 ∧
    longLoc demo 0x9000#16 = some 0x9000#24 ∧
    peek .word demo 0x9000#24 = some 0x1111#16 ∧ gprVal .word demo 2#4 = some 3#16 ∧
    (pokePtr (setFlags (subFlags 3#16 0x1111#16 false true) demo) 0x0202#16 1#4 0x9002#16).isSome = true := by
  decide

/-- CMPD1 R2, #3. -/
theorem witness_CompareStepResult :
    sourceVal .word demo (StepForm.imm4 3#4).src = some 3#16 ∧ gprLoc .word demo 2#4 = some 0xFC04#24 ∧
    peek .word demo 0xFC04#24 = some 3#16 ∧
    (poke .word (setFlagsFor 0xFC04#24 (subFlags 3#16 3#16 false true) demo) 0x0202#16 0xFC04#24
      (3#16 + StepKind.amount .d1)).isSome = true := by decide

theorem witness_CompareThenCondition :
    demo.par = Params.default ∧
    (setFlags (subFlags 0x8000#16 0x0001#16 false true) { demo with psw := 0x0802#16 }).psw = 0x0804#16 ∧
    condHolds .slt ({ demo with psw := 0x0804#16 } : State).flags = true := by decide

theorem witness_ConditionTable :
    demo.par.psw = PswLayout.default ∧
    ({ demo with psw := 0x0005#16 } : State).flags = ⟨false, false, true, false, true⟩ := by decide

/-- SHL R2, #15 and SHL R2, R5. -/
theorem witness_ShiftResult :
    gprLoc .word demo 2#4 = some 0xFC04#24 ∧ peek .word demo 0xFC04#24 = some 3#16 ∧
    (poke .word demo 0x0202#16 0xFC04#24 (shiftResult .shl 3#16 15)).isSome = true ∧
    gprVal .word demo 5#4 = some 0xFFFF#16 ∧ (0xFFFF#16 : Word).toNat % 16 = (15#4 : BitVec 4).toNat := by decide

/-- The largest count of a step and of the flags. -/
theorem witness_ShiftIsRepeatedStep : 0 < 15 ∧ 14 < 15 ∧ 15 ≤ 15 := by decide

/-- PRIOR of 3 and of 0. -/
theorem witness_PrioritizeResult :
    gprVal .word demo 2#4 = some 3#16 ∧ gprVal .word demo 0#4 = some 0#16 ∧ gprLoc .word demo 8#4 = some 0xFC10#24 ∧
    (14#16 : Word).toNat ≤ 15 ∧ (3#16 : Word).toNat * 2 ^ (14#16 : Word).toNat < 0x10000 ∧
    0x8000 ≤ (3#16 : Word).toNat * 2 ^ (14#16 : Word).toNat ∧
    (poke .word demo 0x0202#16 0xFC10#24 14#16).isSome = true ∧
    (poke .word demo 0x0202#16 0xFC10#24 0#16).isSome = true := by decide

/-- MOV R2, [R1] and MOVB [R1], RL2. -/
theorem witness_MoveResult :
    sourceVal .word demo (MoveForm.load 2#4 1#4).src = some 0x1111#16 ∧
    operandLoc .word demo (MoveForm.load 2#4 1#4).dst = some 0xFC04#24 ∧
    (pokeLoc .word (.gpr 2#4) demo 0x0202#16 0xFC04#24 0x1111#16).isSome = true ∧
    sourceVal .byte demo (MoveForm.store 1#4 4#4).src = some 0x03#8 ∧
    operandLoc .byte demo (MoveForm.store 1#4 4#4).dst = some 0x9000#24 ∧
    (pokeLoc .byte (.ind 1#4) demo 0x0202#16 0x9000#24 0x03#8).isSome = true := by decide

/-- MOV R2, [R1+]; MOV [-R4], R2; MOV [R1+], [R4]; MOV [R4], [R1+]. -/
theorem witness_MovePointerResult :
    clashes .word 2#4 1#4 = false ∧ gprVal .word demo 1#4 = some 0x9000#16 ∧
    longLoc demo 0x9000#16 = some 0x9000#24 ∧ peek .word demo 0x9000#24 = some 0x1111#16 ∧
    gprLoc .word demo 2#4 = some 0xFC04#24 ∧
    ((pokeLoc .word (.gpr 2#4) demo 0x0202#16 0xFC04#24 0x1111#16).bind fun u =>
      pokePtr (setFlagsFor 0xFC04#24 (moveFlags u.flags 0x1111#16) u) 0x0202#16 1#4 0x9002#16).isSome = true ∧
    clashes .word 2#4 4#4 = false ∧ gprVal .word demo 2#4 = some 3#16 ∧ gprVal .word demo 4#4 = some 0x9010#16 ∧
    ((pokePtr demo 0x0202#16 4#4 0x900E#16).bind fun u =>
      (longLoc u 0x900E#16).bind fun d => poke .word u 0x0202#16 d 3#16).isSome = true ∧
    (1#4 : RegNum) ≠ 4#4 ∧ sourceVal .word demo (.loc (.ind 4#4)) = some 0x2222#16 ∧
    ((poke .word demo 0x0202#16 0x9000#24 0x2222#16).bind fun u =>
      pokePtr (setFlagsFor 0x9000#24 (moveFlags u.flags 0x2222#16) u) 0x0202#16 1#4 0x9002#16).isSome = true ∧
    operandLoc .word demo (.ind 4#4) = some 0x9010#24 ∧
    ((poke .word demo 0x0202#16 0x9010#24 0x1111#16).bind fun u =>
      pokePtr (setFlagsFor 0x9010#24 (moveFlags u.flags 0x1111#16) u) 0x0202#16 1#4 0x9002#16).isSome =
      true := by decide

/-- MOVBS and MOVBZ R2, RH6. -/
theorem witness_ExtendResult :
    sourceVal .byte demo (.loc (ExtendForm.rr 2#4 13#4).src) = some 0x80#8 ∧
    operandLoc .word demo (ExtendForm.rr 2#4 13#4).dst = some 0xFC04#24 ∧
    (poke .word demo 0x0202#16 0xFC04#24 ((0x80#8 : Byte).signExtend 16)).isSome = true ∧
    (poke .word demo 0x0202#16 0xFC04#24 ((0x80#8 : Byte).setWidth 16)).isSome = true := by decide

theorem witness_JumpResult :
    condHolds .c demo.flags = true ∧ condHolds .nc demo.flags = false ∧ gprVal .word demo 1#4 = some 0x9000#16 := by decide

theorem witness_RelativeTarget :
    condHolds .c demo.flags = true ∧ bitWordVal demo 0x00#8 = some 0x00F0#16 ∧
    (0x00F0#16 : Word).getLsbD (4#4 : BitPos).toNat = true := by decide

/-- JB, JBC, JNB and JNBS of FD00h.4, which is 1, and of FD00h.3, which is 0. -/
theorem witness_JumpBitResult :
    bitLoc demo 0x00#8 = some 0xFD00#24 ∧ peek .word demo 0xFD00#24 = some 0x00F0#16 ∧
    (0x00F0#16 : Word).getLsbD (4#4 : BitPos).toNat = true ∧ (0x00F0#16 : Word).getLsbD (3#4 : BitPos).toNat = !true ∧
    (∀ k < 16, (0x00E0#16 : Word).getLsbD k = if k = (4#4 : BitPos).toNat then !true else (0x00F0#16 : Word).getLsbD k) ∧
    (poke .word (setFlagsFor 0xFD00#24 ⟨false, !true, false, false, true⟩ demo) 0x0204#16 0xFD00#24 0x00E0#16).isSome =
      true := by decide

theorem witness_CallNearResult :
    condHolds .c demo.flags = true ∧ condHolds .nc demo.flags = false ∧
    (pushed demo 0x0204#16 0x0204#16).isSome = true ∧ (pushed demo 0x0202#16 0x0202#16).isSome = true ∧
    gprVal .word demo 1#4 = some 0x9000#16 := by decide

theorem witness_CallSegmentResult :
    ((pushed demo 0x0204#16 (demo.csp.setWidth 16)).bind fun u => pushed u 0x0204#16 0x0204#16).isSome = true ∧
    sourceVal .word demo (.loc (.short 0xF1#8)) = some 0x9000#16 ∧
    ((pushed demo 0x0204#16 0x9000#16).bind fun u => pushed u 0x0204#16 0x0204#16).isSome = true := by decide

theorem witness_TrapInstruction :
    ({ demo with hazIn := { Hazards.clear with syscon := true } } : State).hazIn.syscon = true ∧
    demo.hazIn.syscon = false ∧ demo.syscon.getLsbD 11 = false ∧ (flat demo).syscon.getLsbD 11 = true ∧
    ((pushed demo 0x0202#16 demo.psw).bind fun s1 => (pushed s1 0x0202#16 (s1.csp.setWidth 16)).bind fun s2 =>
      pushed s2 0x0202#16 0x0202#16).isSome = true ∧
    ((pushed (flat demo) 0x0202#16 demo.psw).bind fun s1 => pushed s1 0x0202#16 0x0202#16).isSome = true := by decide

/-- 46_jump_call.md R286: TRAP whose push of the PSW writes SYSCON (SP = FF14h before EINIT) and so sets SGTDIS does not
push CSP: SP ends at FF10h, where IPnext has gone into the PSW. -/
theorem test_trap_push_sets_sgtdis :
    (match step (placed { common with csp := 0#8, psw := 0x0800#16, sp := 0xFF14#16, stkov := 0xFA00#16 }
        [0x9B#8, 0x20#8]) with
      | .next t => some (t.sp, t.ip, t.syscon, t.psw)
      | _ => none) = some (0xFF10#16, 0x0040#16, 0x0800#16, 0x0002#16) := by
  decide

/-- PUSH R1, POP R2 and POP PSW. -/
theorem witness_PushPopResult :
    sourceVal .word demo (.loc (.short 0xF1#8)) = some 0x9000#16 ∧ (pushed demo 0x0202#16 0x9000#16).isSome = true ∧
    ((popped stacked).bind fun p => (shortLoc .word p.2 0xF2#8).bind fun d => poke .word p.2 0x0202#16 d p.1).isSome =
      true ∧
    ((popped stacked).bind fun p => (shortLoc .word p.2 0x88#8).bind fun d => poke .word p.2 0x0202#16 d p.1).isSome =
      true := by decide

/-- SCXT R1, #1234h and SCXT CP, 9000h. -/
theorem witness_SwitchContextResult :
    sourceVal .word demo (.loc (.short 0xF1#8)) = some 0x9000#16 ∧
    ((pushed demo 0x0204#16 0x9000#16).bind fun u => (shortLoc .word u 0xF1#8).bind fun d =>
      poke .word u 0x0204#16 d 0x1234#16).isSome = true ∧
    sourceVal .word demo (.loc (.short 0x08#8)) = some 0xFC00#16 ∧
    sourceVal .word demo (.loc (.long 0x9000#16)) = some 0x1111#16 ∧
    ((pushed demo 0x0204#16 0xFC00#16).bind fun u => (shortLoc .word u 0x08#8).bind fun d =>
      poke .word u 0x0204#16 d 0x1111#16).isSome = true := by decide

theorem witness_ReturnResult :
    ((popped stacked).bind fun p => (popped p.2).bind fun q => (shortLoc .word q.2 0xF1#8).bind fun d =>
      poke .word q.2 0x0202#16 d q.1).isSome = true := by decide

/-- A class B routine that returned with its flag set. -/
def returnedB : State := { demo with retrapB := true, tfr := 0x0080#16 }

theorem witness_ReturnFromInterrupt :
    ({ stacked with hazIn := { Hazards.clear with syscon := true } } : State).hazIn.syscon = true ∧
    stacked.hazIn.syscon = false ∧ stacked.syscon.getLsbD 11 = false ∧ (flat stacked).syscon.getLsbD 11 = true ∧
    ((popped stacked).bind fun p => (popped p.2).bind fun q => popped { q.2 with csp := q.1.setWidth 8 }).isSome = true ∧
    ((popped (flat stacked)).bind fun p => popped p.2).isSome = true ∧
    (match exec .reti { stacked with frames := [.interrupt] } with
      | .next t => t.frames == []
      | _ => false) = true ∧
    returnedB.inputs = [] ∧ returnedB.run = .running ∧ bankOk returnedB.cp = true ∧ returnedB.retrapB = true ∧
    returnedB.tfr &&& classAFlags returnedB.par.traps = 0#16 ∧
    (entered { returnedB with extCount := 0, extEsfr := false, extOvr := .none, retrapB := false } .classB
      returnedB.par.traps.classB 15#4 returnedB.ip).isSome = true := by decide

/-- The demo state with STACK_LIMITS on. -/
def limited : State := { demo with par := { demo.par with stackLimits := true } }

/-- A push at STKOV and one below it, a pop that reaches STKUN and one above it. -/
theorem witness_PushThenPop :
    place demo (near (demo.sp - 2#16)) = .ram ∧ ¬ demo.stkun < demo.sp ∧ (pushed demo 0x0202#16 0x1234#16).isSome = true ∧
    demo.hazIn.sp = false ∧ limited.par.stackLimits = true ∧ demo.par.stackLimits = false ∧
    ([0xFA02#16, 0xFA00#16].map fun p =>
      (poke .word { demo with sp := p - 2#16 } 0x0202#16 (near (p - 2#16)) 0x1234#16).map
        fun t => decide (t.sp < t.stkov)) = [some false, some true] ∧
    ([0xFBFE#16, 0xFC00#16].map fun p =>
      (peek .word demo (near p)).map fun _ => decide (demo.stkun < p + 2#16)) = [some false, some true] ∧
    ({ demo with hazIn := { Hazards.clear with sp := true } } : State).hazIn.sp = true := by
  decide

/-- 60_exceptions.md R358: a push below STKOV with STACK_LIMITS on and off. -/
theorem test_stack_limits :
    (match step (placed { limited with sp := 0xFA00#16 } [0xEC#8, 0xF1#8]) with
      | .next t => some (t.sp, t.tfr, t.pendStkof, t.ip)
      | _ => none) = some (0xF9FE#16, 0x4000#16, true, 0x0202#16) ∧
    refuses { demo with sp := 0xFA00#16 } [0xEC#8, 0xF1#8] .stackOverflow = true := by
  decide

theorem witness_SystemEffects :
    demo.initDone = false ∧ ({ demo with initDone := true } : State).initDone = true ∧ demo.nmiPinLow = false ∧
    ({ demo with nmiPinLow := true } : State).nmiPinLow = true ∧ demo.extCount = 0 ∧
    ({ demo with extCount := 1 } : State).extCount ≠ 0 := by decide

/-- Two requesting sources of levels 5 and 9, IEN set at level 0: the second is entered. -/
def requesting : State :=
  { demo with psw := 0x0800#16, irqs := [⟨0x18#7, 0x00FF60#24, 0xD4#8, false⟩, ⟨0x19#7, 0x00FF62#24, 0xE5#8, false⟩] }

theorem witness_ResetTransition :
    ({ demo with inputs := [[.nmi, .reset]] } : State).inputs = [.nmi, .reset] :: [] ∧
    EnvEvent.reset ∈ [EnvEvent.nmi, .reset] ∧ EnvEvent.watchdogReset ∈ [EnvEvent.irq 0, .watchdogReset] ∧
    requesting.wdtEnabled = true ∧ requesting.run ≠ .powerdown ∧ requesting.irqs ≠ [] := by decide

/-- EXTP inside EXTP and inside EXTR, and EXTR inside EXTP. -/
theorem witness_SequenceBegins :
    demo.extCount = 0 ∧
    (({ demo with extCount := 2, extOvr := .page 3#10 } : State).extEsfr = true → (ExtForm.extp 4#10).esfr = true) ∧
    (({ demo with extCount := 2, extOvr := .page 3#10 } : State).extOvr ≠ .none → (ExtForm.extp 4#10).ovr ≠ .none) ∧
    ({ demo with extCount := 2, extEsfr := true } : State).extEsfr = true ∧ (ExtForm.extp 4#10).esfr = false ∧
    ({ demo with extCount := 2, extOvr := .page 3#10 } : State).extOvr ≠ .none ∧ ExtForm.extr.ovr = .none := by decide

theorem witness_SequenceByRegister :
    gprVal .word demo 1#4 = some 0x9000#16 ∧ demo.extCount = 0 ∧
    ({ demo with extCount := 2, extEsfr := true } : State).extCount ≠ 0 ∧
    ({ demo with extCount := 2, extEsfr := true } : State).extEsfr = true ∧
    gprVal .word { demo with extCount := 2, extEsfr := true } 1#4 = some 0x9000#16 := by decide

theorem witness_TrapFrameLayout :
    demo.syscon.getLsbD 11 = false ∧ (enteredB demo .illopa 0x0202#16).isSome = true ∧ demo.par.psw = PswLayout.default ∧
    place demo (near (demo.sp - 2#16)) = .ram ∧ place demo (near (demo.sp - 4#16)) = .ram ∧
    place demo (near (demo.sp - 6#16)) = .ram := by decide

theorem witness_UndefinedOpcodeTraps :
    (enteredB demo .undopc demo.ip).isSome = true ∧ demo.par.hasMac = false ∧
    ({ demo with par := { demo.par with hasMac := true } } : State).par.hasMac = true := by decide

/-- DISWDT with a wrong last byte. -/
theorem witness_ProtectionFaultTraps :
    (0xA5#8 : Byte) ∈ [0x87#8, 0x97#8, 0xA7#8, 0xA5#8, 0xB5#8, 0xB7#8] ∧
    ¬ ((0x5A#8 : Byte) = ~~~0xA5#8 ∧ (0xA5#8 : Byte) = 0xA5#8 ∧ (0x00#8 : Byte) = 0xA5#8) ∧
    (enteredB demo .prtflt demo.ip).isSome = true := by decide

/-- The word at the odd address in R7; MOV [-R7], R2 with R7 = 1 steps it to FFFFh. -/
theorem witness_OddOperandTraps :
    operandLoc .word demo (.ind 7#4) = some 0x000001#24 ∧ isOdd (0x000001#24 : Addr) = true ∧
    (AluForm.memReg 0x9001#16 0xF1#8).dst = .long 0x9001#16 ∧ operandLoc .word demo (.long 0x9001#16) = some 0x9001#24 ∧
    isOdd (0x9001#24 : Addr) = true ∧ sourceVal .word demo (AluForm.memReg 0x9001#16 0xF1#8).src = some 0x9000#16 ∧
    (AluForm.regMem 0xF2#8 0x9001#16).src = .loc (.long 0x9001#16) ∧
    cmpInstr .word (.regMem 0xF2#8 0x9001#16) = some (.cmpRegMem 0xF2#8 0x9001#16) ∧
    (StepForm.mem 0x9001#16).src = .loc (.long 0x9001#16) ∧
    (enteredB demo .illopa 0x0202#16).isSome = true ∧ (enteredB demo .illopa 0x0204#16).isSome = true ∧
    (MoveForm.load 2#4 7#4).src = .loc (.ind 7#4) ∧ (MoveForm.store 7#4 2#4).dst = .ind 7#4 ∧
    sourceVal .word demo (MoveForm.store 7#4 2#4).src = some 3#16 ∧ (7#4 : RegNum) ≠ 2#4 ∧
    sourceVal .word demo (.loc (.ind 1#4)) = some 0x1111#16 ∧ (7#4 : RegNum) ≠ 1#4 ∧
    gprVal .word demo 2#4 = some 3#16 ∧ gprVal .word demo 7#4 = some 1#16 ∧
    ((pokePtr demo 0x0202#16 7#4 0xFFFF#16).bind fun t => (longLoc t 0xFFFF#16).bind fun d =>
      if isOdd d then enteredB t .illopa 0x0202#16 else none).isSome = true ∧
    (ExtendForm.memReg 0x9001#16 0xF2#8).dst = .long 0x9001#16 ∧ sourceVal .byte demo (.loc (.short 0xF2#8)) = some 0#8 ∧
    sourceVal .word demo (.loc (.short 0xF2#8)) = some 3#16 := by decide

/-- The pointer 9001h in R1 for the forms whose pointer field has two bits. -/
theorem witness_OddOperandTraps_post_increment :
    operandLoc .word (withWords demo [(0xFC02#24, 0x9001#16)]) (.ind ((1#2 : PtrNum).setWidth 4)) = some 0x9001#24 ∧
    (5#4 : RegNum) ≠ (1#2 : PtrNum).setWidth 4 ∧
    (enteredB (withWords demo [(0xFC02#24, 0x9001#16)]) .illopa 0x0202#16).isSome = true := by decide

/-- 60_exceptions.md R355, 40_arithmetic.md R140: ADD 9001h, R1 stacks IPnext and writes nothing. -/
theorem test_odd_destination :
    (match step (placed demo [0x04#8, 0xF1#8, 0x01#8, 0x90#8]) with
      | .next t => some (t.ip, t.tfr, peek .word t 0xFBFA#24, peek .word t 0x9000#24)
      | _ => none) = some (0x0028#16, 0x0004#16, some 0x0204#16, some 0x1111#16) := by
  decide

/-- An odd IP at an open boundary and inside a sequence. -/
theorem witness_OddTargetTraps :
    isOdd (0x0301#16 : Word) = true ∧ demo.inputs = [] ∧ demo.run = .running ∧ bankOk demo.cp = true ∧
    demo.retrapB = false ∧ highestClassA { demo with ip := 0x0301#16 } = none ∧ (arbitrate { demo with ip := 0x0301#16 }).isNone = true ∧
    demo.par.endAddr = none ∧
    (enteredB (afterArbitration { demo with ip := 0x0301#16 }) .illina 0x0301#16).isSome = true ∧
    ({ demo with ip := 0x0301#16, extCount := 2 } : State).extCount ≠ 0 ∧
    (enteredB { demo with ip := 0x0301#16, extCount := 2 } .illina 0x0301#16).isSome = true := by decide

theorem witness_ClassAEntry :
    demo.run ≠ .powerdown ∧ bankOk demo.cp = true ∧ demo.retrapB = false ∧ demo.extCount = 0 ∧
    ({ demo with inputs := [[.nmi]] } : State).inputs = [[.nmi]] ∧
    (entered { demo with inputs := [], run := .running, tfr := demo.tfr ||| 0x8000#16, pendNmi := false } (.classA .nmi)
      0x02#7 15#4 demo.ip).isSome = true ∧
    ({ demo with pendNmi := true } : State).pendNmi = true ∧
    (entered { demo with run := .running, pendNmi := false } (.classA .nmi) 0x02#7 15#4 demo.ip).isSome = true ∧
    ({ demo with pendStkof := true } : State).pendStkof = true ∧
    (entered { demo with run := .running, pendStkof := false } (.classA .stkof) 0x04#7 15#4 demo.ip).isSome = true ∧
    ({ demo with pendStkuf := true } : State).pendStkuf = true ∧
    (entered { demo with run := .running, pendStkuf := false } (.classA .stkuf) 0x06#7 15#4 demo.ip).isSome = true := by
  decide

theorem witness_InterruptEntry :
    requesting.inputs = [] ∧ requesting.run = .running ∧ bankOk requesting.cp = true ∧ requesting.retrapB = false ∧
    requesting.extCount = 0 ∧
    requesting.arbHist = [] ∧ requesting.pendNmi = false ∧ requesting.pendStkof = false ∧ requesting.pendStkuf = false ∧
    requesting.irqs[1]? = some ⟨0x19#7, 0x00FF62#24, 0xE5#8, false⟩ ∧
    requesting.irqs[0]? = some ⟨0x18#7, 0x00FF60#24, 0xD4#8, false⟩ ∧ requesting.irqs.length = 2 ∧
    (0xE5#8 : Byte).getLsbD 7 = true ∧ (0xE5#8 : Byte).getLsbD 6 = true ∧
    (0xD4#8 : Byte).toNat % 64 < (0xE5#8 : Byte).toNat % 64 ∧ (0xD4#8 : Byte).toNat % 64 ≠ (0xE5#8 : Byte).toNat % 64 ∧
    pswIen requesting.par.psw requesting.psw = true ∧
    (pswIlvl requesting.par.psw requesting.psw).toNat < (0xE5#8 : Byte).toNat / 4 % 16 ∧
    (entered (putIrq requesting 1 (0xE5#8 &&& 0x7F#8)) .interrupt 0x19#7 ((0xE5#8 : Byte).extractLsb' 2 4)
      requesting.ip).isSome = true := by decide

/-- The control register of the second source, a byte destination of each kind, a request inside a sequence and outside. -/
theorem witness_InterruptEntry_registers :
    requesting.irqs[1]? = some ⟨0x19#7, 0x00FF62#24, 0xE5#8, false⟩ ∧ place requesting 0x00FF62#24 = .irq 1 ∧
    isOdd (0x00FF62#24 : Addr) = false ∧ beyondBits requesting 0x00FF62#24 = false ∧
    beyondBits requesting (0x00FF62#24 + 1) = false ∧ inWindow requesting 0x0202#16 0x00FF62#24 = false ∧
    inWindow requesting 0x0202#16 (0x00FF62#24 + 1) = false ∧
    ([Loc.gpr 1#4, .short 0xF1#8, .long 0xFF63#16, .ind 1#4].all fun l => !storesWord .byte l) = true ∧
    storesWord .byte (.short 0xB1#8) = true ∧
    ([0, 1].all fun n => decide (({ requesting with inputs := [[.irq 1]], extCount := n } : State).inputs = [[.irq 1]]) &&
      decide (({ requesting with inputs := [[.irq 1]], extCount := n } : State).run ≠ .powerdown)) = true := by decide

theorem witness_IdleAndPowerDown :
    ({ demo with run := .idle } : State).run = .idle ∧ demo.inputs = [] ∧ demo.pendNmi = false ∧
    demo.pendStkof = false ∧ demo.pendStkuf = false ∧ demo.irqs = [] ∧
    (∃ q ∈ requesting.irqs, q.ic.getLsbD 7 = true ∧ q.ic.getLsbD 6 = true) ∧
    ({ demo with run := .powerdown } : State).run = .powerdown ∧
    ({ demo with run := .powerdown, inputs := [[.nmi]] } : State).inputs = [.nmi] :: [] ∧
    EnvEvent.reset ∉ [EnvEvent.nmi] := by decide

/-- Whether an instruction whose written addresses are known answers a next state and enters no service routine. -/
def framed (s : State) (i : Instr) (ds : State → Option (List (Width × Addr))) : Bool :=
  (ds s).isSome &&
    match exec i s with
    | .next t => t.frames == s.frames
    | _ => false

/-- The maps of the states above have no device window. -/
theorem witness_NoDevices : NoDevices demo ∧ NoDevices stacked :=
  ⟨(by decide : ∀ r ∈ demo.par.map, r.kind ≠ .device), (by decide : ∀ r ∈ stacked.par.map, r.kind ≠ .device)⟩

theorem witness_DataFrames :
    framed demo (aluInstr .add .word (.rr 2#4 3#4))
      (fun s => (operandLoc .word s (AluForm.rr 2#4 3#4).dst).map fun d => [(storeWidth .word (.gpr 2#4), d)]) = true ∧
    framed demo (aluInstr .or .byte (.regImm 0x87#8 0x12#16))
      (fun s => (operandLoc .byte s (.short 0x87#8)).map fun d => [(storeWidth .byte (.short 0x87#8), d)]) = true ∧
    framed demo (aluIncInstr .add .word 2#4 1#2) (fun s => (gprLoc .word s 2#4).bind fun d =>
      storedThenPtr .word (.gpr 2#4) s (s.ip + 2#16) d (aluResult .add s.flags 3#16 0x1111#16) 1#4) = true ∧
    framed demo (cplInstr .word 2#4) (fun s => (gprLoc .word s 2#4).map fun d => [(.word, d)]) = true ∧
    framed demo (negInstr .byte 2#4) (fun s => (gprLoc .byte s 2#4).map fun d => [(.byte, d)]) = true ∧
    framed demo (.mul 2#4 3#4) (fun s => some [atReg s .mdl, atReg s .mdh]) = true ∧
    framed demo (.mulu 2#4 3#4) (fun s => some [atReg s .mdl, atReg s .mdh]) = true ∧
    framed demo (divInstr .divl 2#4) (fun s => some [atReg s .mdl, atReg s .mdh]) = true ∧
    framed demo (.bset 0x00#8 3#4) (fun s => (bitLoc s 0x00#8).map fun a => [(.word, a)]) = true ∧
    framed demo (.bclr 0x00#8 3#4) (fun s => (bitLoc s 0x00#8).map fun a => [(.word, a)]) = true ∧
    framed demo (.bmov 0x01#8 3#4 0x00#8 4#4) (fun s => (bitLoc s 0x01#8).map fun a => [(.word, a)]) = true ∧
    framed demo (.bmovn 0x01#8 3#4 0x00#8 4#4) (fun s => (bitLoc s 0x01#8).map fun a => [(.word, a)]) = true ∧
    framed demo (.bcmp 0x01#8 3#4 0x00#8 4#4) (fun _ => some []) = true ∧
    framed demo (bitLogicInstr .xor 0x01#8 3#4 0x00#8 4#4)
      (fun s => (bitLoc s 0x01#8).map fun a => [(.word, a)]) = true ∧
    framed demo (.bfldl 0x00#8 0x0F#8 0x0A#8) (fun s => (bitLoc s 0x00#8).map fun a => [(.word, a)]) = true ∧
    framed demo (.bfldh 0x00#8 0x0F#8 0x0A#8) (fun s => (bitLoc s 0x00#8).map fun a => [(.word, a)]) = true ∧
    cmpInstr .word (.rr 2#4 3#4) = some (.cmpRwRw 2#4 3#4) ∧ framed demo (.cmpRwRw 2#4 3#4) (fun _ => some []) = true ∧
    framed demo (cmpIncInstr .word 2#4 1#2) (fun s => (gprLoc .word s 1#4).map fun p => [(.word, p)]) = true ∧
    framed demo (stepInstr .i2 2#4 (.imm4 3#4)) (fun s => (gprLoc .word s 2#4).map fun d => [(.word, d)]) = true ∧
    framed demo (shiftRegInstr .ror 2#4 3#4) (fun s => (gprLoc .word s 2#4).map fun d => [(.word, d)]) = true ∧
    framed demo (shiftImmInstr .ashr 2#4 3#4) (fun s => (gprLoc .word s 2#4).map fun d => [(.word, d)]) = true ∧
    framed demo (.prior 2#4 3#4) (fun s => (gprLoc .word s 2#4).map fun d => [(.word, d)]) = true := by decide

theorem witness_MoveFrames :
    framed demo (moveInstr .byte (.store 1#4 4#4))
      (fun s => (operandLoc .byte s (MoveForm.store 1#4 4#4).dst).map fun d => [(.byte, d)]) = true ∧
    framed demo (moveFromIncInstr .word 2#4 1#4) (fun s => (gprLoc .word s 2#4).bind fun d =>
      storedThenPtr .word (.gpr 2#4) s (s.ip + 2#16) d 0x1111#16 1#4) = true ∧
    framed demo (moveToDecInstr .word 4#4 2#4) (fun s => (gprLoc .word s 4#4).bind fun pa =>
      (peek .word s pa).bind fun p => (pokePtr s (s.ip + 2#16) 4#4 (p - widthStep .word)).bind fun u =>
        (longLoc u (p - widthStep .word)).map fun d => [(.word, d), (.word, pa)]) = true ∧
    framed demo (moveIncIndInstr .word 1#4 4#4) (fun s => (operandLoc .word s (.ind 1#4)).bind fun d =>
      storedThenPtr .word (.ind 1#4) s (s.ip + 2#16) d 0x2222#16 1#4) = true ∧
    framed demo (moveIndIncInstr .byte 1#4 4#4) (fun s => (operandLoc .byte s (.ind 1#4)).bind fun d =>
      storedThenPtr .byte (.ind 1#4) s (s.ip + 2#16) d 0x22#8 4#4) = true ∧
    framed demo (extendInstr .sign (.rr 2#4 13#4))
      (fun s => (operandLoc .word s (ExtendForm.rr 2#4 13#4).dst).map fun d => [(.word, d)]) = true := by decide

theorem witness_ControlFrames_jumps :
    framed demo .nop (fun _ => some []) = true ∧ framed demo (.jmpr .c 0x10#8) (fun _ => some []) = true ∧
    framed demo (.jmpa .c 0x1000#16) (fun _ => some []) = true ∧ framed demo (.jmpi .c 1#4) (fun _ => some []) = true ∧
    framed demo (.jmps 1#8 0x1000#16) (fun s => some [atReg s .csp]) = true ∧
    framed demo (.jb 0x00#8 4#4 0x10#8) (fun _ => some []) = true ∧
    framed demo (.jnb 0x00#8 4#4 0x10#8) (fun _ => some []) = true ∧
    framed demo (.jbc 0x00#8 4#4 0x10#8) (fun s => (bitLoc s 0x00#8).bind fun a => (peek .word s a).map fun x =>
      if x.getLsbD (4#4 : BitPos).toNat then [(.word, a)] else []) = true ∧
    framed demo (.jnbs 0x00#8 3#4 0x10#8) (fun s => (bitLoc s 0x00#8).bind fun a => (peek .word s a).map fun x =>
      if x.getLsbD (3#4 : BitPos).toNat then [] else [(.word, a)]) = true := by decide

theorem witness_ControlFrames_calls :
    framed demo (.calla .c 0x1000#16) (fun s =>
      some (if condHolds .c s.flags then pushSlot s 1#16 :: stackRegs s else [])) = true ∧
    framed demo (.calli .c 1#4) (fun s =>
      some (if condHolds .c s.flags then pushSlot s 1#16 :: stackRegs s else [])) = true ∧
    framed demo (.callr 0x10#8) (fun s => some (pushSlot s 1#16 :: stackRegs s)) = true ∧
    framed demo (.calls 1#8 0x1000#16) (fun s => (pushed s (s.ip + 4#16) (s.csp.setWidth 16)).map fun u =>
      pushSlot s 1#16 :: pushSlot u 1#16 :: atReg s .csp :: stackRegs s) = true ∧
    framed demo (.pcall 0xF1#8 0x1000#16) (fun s => (sourceVal .word s (.loc (.short 0xF1#8))).bind fun v =>
      (pushed s (s.ip + 4#16) v).map fun u => pushSlot s 1#16 :: pushSlot u 1#16 :: stackRegs s) = true := by decide

theorem witness_ControlFrames_stack :
    framed demo (.push 0xF1#8) (fun s => some (pushSlot s 1#16 :: stackRegs s)) = true ∧
    framed stacked (.pop 0xF1#8) (fun s => (shortLoc .word s 0xF1#8).map fun d => (.word, d) :: stackRegs s) = true ∧
    framed demo (.scxtRegImm 0xF1#8 0x1234#16) (fun s => (sourceVal .word s (.loc (.short 0xF1#8))).bind fun v =>
      (pushed s (s.ip + 4#16) v).bind fun u => (shortLoc .word u 0xF1#8).map fun d =>
        (.word, d) :: pushSlot s 1#16 :: stackRegs s) = true ∧
    framed demo (.scxtRegMem 0xF1#8 0x9010#16) (fun s => (sourceVal .word s (.loc (.short 0xF1#8))).bind fun v =>
      (pushed s (s.ip + 4#16) v).bind fun u => (shortLoc .word u 0xF1#8).map fun d =>
        (.word, d) :: pushSlot s 1#16 :: stackRegs s) = true ∧
    framed stacked .ret (fun s => some (stackRegs s)) = true ∧
    framed stacked .rets (fun s => some (atReg s .csp :: stackRegs s)) = true ∧
    framed stacked (.retp 0xF1#8) (fun s => (shortLoc .word s 0xF1#8).map fun d => (.word, d) :: stackRegs s) = true := by
  decide

end Sys2Proof.Tests
end

section
/-!
PROOFS. The additions and the subtractions (40_arithmetic.md R141, R142): which body `exec` runs for a two-operand
instruction, what that body leaves where the operands can be read and written, and the model's sums, differences and
flags written out with the carry as a number.
-/

namespace Sys2Proof.Machine

/-! The body an instruction runs -/

/-- Every two-operand instruction runs the shared operation on the operands of its form. -/
theorem exec_aluInstr (op : AluOp) (w : Width) (f : AluForm) (s : State) :
    exec (aluInstr op w f) s = seqInstr f.len (alu op w f.dst f.src) s := by
  cases op <;> cases w <;> cases f <;> rfl

/-- Every compare instruction runs the shared comparison on the operands of its form. -/
theorem exec_cmpInstr {w : Width} {f : AluForm} {i : Instr} (h : cmpInstr w f = some i) (s : State) :
    exec i s = seqInstr f.len (compare w f.dst f.src) s := by
  cases w <;> cases f <;> cases h <;> rfl

/-- The flag write after a store, its PSW exception read in the state before the store, which keeps the parameters. -/
theorem setFlagsFor_of_par {s u : State} (h : u.par = s.par) (d : Addr) (f : Flags) :
    setFlagsFor d f u = if evenAddr d = s.par.sfr.psw then u else setFlags f u := by
  simp [setFlagsFor, isPswAddr, h]

/-- A two-operand instruction whose operands can be read and whose destination can be written. -/
theorem exec_aluInstr_of {op : AluOp} {w : Width} {f : AluForm} {s u : State} {a b : BitVec w.bits} {d : Addr}
    (hb : sourceVal w s f.src = some b) (hd : operandLoc w s f.dst = some d) (ha : peek w s d = some a)
    (hu : pokeLoc w f.dst s (s.ip + f.len) d (aluResult op s.flags a b) = some u) :
    exec (aluInstr op w f) s = .next
      { (if evenAddr d = s.par.sfr.psw then u else setFlags (aluFlags op s.flags a b) u) with ip := s.ip + f.len } := by
  rw [exec_aluInstr, seqInstr_ok (alu_of hb hd ha hu), setFlagsFor_of_par (pokeLoc_par hu)]

/-- A compare instruction whose operands can be read. -/
theorem exec_cmpInstr_of {w : Width} {f : AluForm} {i : Instr} {s : State} {a b : BitVec w.bits}
    (hi : cmpInstr w f = some i) (hb : sourceVal w s f.src = some b) (ha : sourceVal w s (.loc f.dst) = some a) :
    exec i s = .next { setFlags (subFlags a b false true) s with ip := s.ip + f.len } := by
  rw [exec_cmpInstr hi, seqInstr_ok (compare_of hb ha)]

/-! The carry in, and the operation with and without it -/

/-- The carry in of an operation: C before, for the operations that take it. -/
theorem carryNat_and (carry c : Bool) : carryNat (carry && c) = if carry = true ∧ c = true then 1 else 0 := by
  simp [carryNat]

section
variable {k : Nat} (carry : Bool) (f : Flags) (a b : BitVec k)

theorem aluResult_add : aluResult (if carry then .addc else .add) f a b = addValue a b (carry && f.c) := by
  cases carry <;> rfl

theorem aluFlags_add :
    aluFlags (if carry then .addc else .add) f a b = addFlags a b (carry && f.c) (!carry || f.z) := by
  cases carry <;> rfl

theorem aluResult_sub : aluResult (if carry then .subc else .sub) f a b = subValue a b (carry && f.c) := by
  cases carry <;> rfl

theorem aluFlags_sub :
    aluFlags (if carry then .subc else .sub) f a b = subFlags a b (carry && f.c) (!carry || f.z) := by
  cases carry <;> rfl

end

/-- The difference reduced once at the end is the difference taken modulo 2^W at each step (40_arithmetic.md R142). -/
theorem subValue_eq_sub {k : Nat} (a b : BitVec k) (cin : Bool) :
    subValue a b cin = a - b - BitVec.ofNat k (carryNat cin) := by
  calc subValue a b cin = ((a.toNat - b.toNat - carryNat cin : Int) : BitVec k) := rfl
    _ = (a.toNat : BitVec k) - (b.toNat : BitVec k) - (carryNat cin : BitVec k) := by push_cast; rfl
    _ = a - b - BitVec.ofNat k (carryNat cin) := by simp [BitVec.natCast_eq_ofNat]

/-! The obligations -/

/-- Settles O12: the model's sum and addition flags, with the carry in as a number. -/
theorem addResult : Obligations.AddResult := by
  intro carry w f s u a b r d cin hcin hb hd ha hr hu
  rw [← carryNat_and] at hcin
  subst hcin hr
  rw [exec_aluInstr_of hb hd ha (by rw [aluResult_add]; exact hu), aluFlags_add]
  rfl

/-- Settles O13: for SUB and SUBC the model's difference and subtraction flags, with the borrow in as a number; CMP is
the case without one, which sets its flags over nothing stored. -/
theorem subResult : Obligations.SubResult := by
  intro carry w f s a b r cin g hcin hr hg hb
  rw [← carryNat_and] at hcin
  subst hcin
  rw [← subValue_eq_sub] at hr
  subst hr
  have hflags : g = subFlags a b (carry && s.flags.c) (!carry || s.flags.z) := hg
  refine ⟨fun d u hd ha hu => ?_, fun i hcarry hi ha => ?_⟩
  · rw [exec_aluInstr_of hb hd ha (by rw [aluResult_sub]; exact hu), aluFlags_sub, hflags]
  · subst hcarry
    rw [exec_cmpInstr_of hi hb ha, hflags]
    rfl

end Sys2Proof.Machine
end


section
/-!
PROOFS. Encoding and decoding (30_encoding.md R100 to R118): every well-formed instruction is read back from its bytes,
whatever follows them.
-/

namespace Sys2Proof

/-! One lemma per common format: the length by the opcode byte, and each field read back from where it was put -/

/-- Two bytes whose opcode names a 2-byte instruction (30_encoding.md R100). -/
theorem decodeBytes_two {b0 b1 : Byte} {i : Instr} (rest : List Byte) (hl : instrLength b0 = 2)
    (hd : decode b0 b1 0#8 0#8 = .instr i) : decodeBytes (b0 :: b1 :: rest) = some (.instr i, rest) := by
  simp [decodeBytes, hl, hd]

/-- Four bytes whose opcode names a 4-byte instruction (30_encoding.md R100). -/
theorem decodeBytes_four {b0 b1 b2 b3 : Byte} {i : Instr} (rest : List Byte) (hl : instrLength b0 = 4)
    (hd : decode b0 b1 b2 b3 = .instr i) :
    decodeBytes (b0 :: b1 :: b2 :: b3 :: rest) = some (.instr i, rest) := by
  simp [decodeBytes, hl, hd]

/-- `op nm` (30_encoding.md R103). -/
theorem decodeBytes_nibbles {b0 : Byte} {f : BitVec 4 → BitVec 4 → Instr} {n m : BitVec 4} (rest : List Byte)
    (hl : instrLength b0 = 2) (hd : ∀ b1, decode b0 b1 0#8 0#8 = .instr (f (nibHi b1) (nibLo b1))) :
    decodeBytes (b0 :: packNib n m :: rest) = some (.instr (f n m), rest) :=
  decodeBytes_two rest hl (by simp [hd])

/-- `op #n` and `op mn`: the first operand in the low nibble (30_encoding.md R103). -/
theorem decodeBytes_nibbles_swapped {b0 : Byte} {f : BitVec 4 → BitVec 4 → Instr} {n m : BitVec 4} (rest : List Byte)
    (hl : instrLength b0 = 2) (hd : ∀ b1, decode b0 b1 0#8 0#8 = .instr (f (nibLo b1) (nibHi b1))) :
    decodeBytes (b0 :: packNib m n :: rest) = some (.instr (f n m), rest) :=
  decodeBytes_two rest hl (by simp [hd])

/-- `op RR MM MM` and `op RR ## ##` (30_encoding.md R106). -/
theorem decodeBytes_byte_word {b0 : Byte} {f : Byte → Word → Instr} {r : Byte} {a : Word} (rest : List Byte)
    (hl : instrLength b0 = 4) (hd : ∀ b1 b2 b3, decode b0 b1 b2 b3 = .instr (f b1 (joinBytes b3 b2))) :
    decodeBytes (b0 :: r :: loByte a :: hiByte a :: rest) = some (.instr (f r a), rest) :=
  decodeBytes_four rest hl (by simp [hd])

/-- `op RR MM MM` with the memory operand first (30_encoding.md R106). -/
theorem decodeBytes_word_byte {b0 : Byte} {f : Word → Byte → Instr} {r : Byte} {a : Word} (rest : List Byte)
    (hl : instrLength b0 = 4) (hd : ∀ b1 b2 b3, decode b0 b1 b2 b3 = .instr (f (joinBytes b3 b2) b1)) :
    decodeBytes (b0 :: r :: loByte a :: hiByte a :: rest) = some (.instr (f a r), rest) :=
  decodeBytes_four rest hl (by simp [hd])

/-! The obligations -/

/-- Decoding inverts encoding. The protected opcodes rest on well-formedness: their bytes are not the pattern
(48_system_control.md R320). In JMPR, BCLR and BSET the low nibble alone is the opcode. The remaining formats have bits
that select the form or are fixed, which the lemmas of Laws/Encoding.lean read back with the fields. -/
theorem decodeBytes_encode (i : Instr) (rest : List Byte) (hi : i.wf = true) :
    decodeBytes (encode i ++ rest) = some (.instr i, rest) := by
  cases i with
  | addRwRw | addbRbRb | addcRwRw | addcbRbRb | subRwRw | subbRbRb | subcRwRw | subcbRbRb | cmpRwRw | cmpbRbRb |
    xorRwRw | xorbRbRb | andRwRw | andbRbRb | orRwRw | orbRbRb | mul | mulu | prior | rolRwRw | rorRwRw | shlRwRw |
    shrRwRw | ashrRwRw | movRwInd | movbRbInd | movRwInc | movbRbInc | movIndInd | movbIndInd | movIncInd |
    movbIncInd | movIndInc | movbIndInc | movRwRw | movbRbRb =>
    exact decodeBytes_nibbles rest rfl fun _ => rfl
  | rolRwImm4 | rorRwImm4 | shlRwImm4 | shrRwImm4 | ashrRwImm4 | cmpi1RwImm4 | cmpi2RwImm4 | cmpd1RwImm4 |
    cmpd2RwImm4 | movIndRw | movbIndRb | movDecRw | movbDecRb | movbzRwRb | movbsRwRb | movRwImm4 | movbRbImm4 =>
    exact decodeBytes_nibbles_swapped rest rfl fun _ => rfl
  | addRegMem | addRegImm | addbRegMem | addbRegImm | addcRegMem | addcRegImm | addcbRegMem | addcbRegImm |
    subRegMem | subRegImm | subbRegMem | subbRegImm | subcRegMem | subcRegImm | subcbRegMem | subcbRegImm |
    cmpRegMem | cmpRegImm | cmpbRegMem | cmpbRegImm | xorRegMem | xorRegImm | xorbRegMem | xorbRegImm | andRegMem |
    andRegImm | andbRegMem | andbRegImm | orRegMem | orRegImm | orbRegMem | orbRegImm | calls | jmps | movbzRegMem |
    movbsRegMem | scxtRegImm | scxtRegMem | pcall | movRegImm | movbRegImm | movRegMem | movbRegMem =>
    exact decodeBytes_byte_word rest rfl fun _ _ _ => rfl
  | addMemReg | addbMemReg | addcMemReg | addcbMemReg | subMemReg | subbMemReg | subcMemReg | subcbMemReg |
    xorMemReg | xorbMemReg | andMemReg | andbMemReg | orMemReg | orbMemReg | movbzMemReg | movbsMemReg | movMemReg |
    movbMemReg =>
    exact decodeBytes_word_byte rest rfl fun _ _ _ => rfl
  | protFault87 | protFault97 | protFaultA7 | protFaultB7 =>
    simp only [Instr.wf, Bool.not_eq_true'] at hi
    exact decodeBytes_four rest rfl (by simp [decode, decodeCol7, hi])
  | protFaultA5 | protFaultB5 =>
    simp only [Instr.wf, Bool.not_eq_true'] at hi
    exact decodeBytes_four rest rfl (by simp [decode, decodeCol5, hi])
  | jmpr cc rel => exact decodeBytes_two rest (Laws.instrLength_packNib_jmpr _) (by simp [decode])
  | bclr qq q => exact decodeBytes_two rest (Laws.instrLength_packNib_bclr _) (by simp [decode])
  | bset qq q => exact decodeBytes_two rest (Laws.instrLength_packNib_bset _) (by simp [decode])
  | _ =>
    simp [encode, decodeBytes, instrLength, decode, decodeCol1, decodeCol2, decodeCol3, decodeCol4, decodeCol5,
      decodeCol6, decodeCol7, decodeCol8, decodeCol9, decodeColA, decodeColB, decodeColC, fixedBits]

/-- Settles O1. -/
theorem decodeInvertsEncode : Obligations.DecodeInvertsEncode := decodeBytes_encode

/-- Settles O2: each word by the decoder's own column. -/
theorem decodeSanityWords : Obligations.DecodeSanityWords := by
  unfold Obligations.DecodeSanityWords
  decide

end Sys2Proof
end


section
/-!
PROOFS. The machine invariant (Safety.lean, `Inv`): the state after reset satisfies it, every instruction keeps it (one
line per body, over Laws/BodyInvariant.lean), and so does everything that happens at an instruction boundary.
-/

namespace Sys2Proof.Machine

/-! The instructions -/

/-- Every instruction that answers a next state keeps the invariant, whether it ends or traps. -/
theorem exec_keeps {i : Instr} {s t : State} (h : Inv s) (ht : exec i s = .next t) : Inv t := by
  cases i with
  | addRwRw | addRegMem | addMemReg | addRegImm | addRwImm3 | addRwInd | addbRbRb | addbRegMem | addbMemReg |
    addbRegImm | addbRbImm3 | addbRbInd | addcRwRw | addcRegMem | addcMemReg | addcRegImm | addcRwImm3 | addcRwInd |
    addcbRbRb | addcbRegMem | addcbMemReg | addcbRegImm | addcbRbImm3 | addcbRbInd | subRwRw | subRegMem | subMemReg |
    subRegImm | subRwImm3 | subRwInd | subbRbRb | subbRegMem | subbMemReg | subbRegImm | subbRbImm3 | subbRbInd |
    subcRwRw | subcRegMem | subcMemReg | subcRegImm | subcRwImm3 | subcRwInd | subcbRbRb | subcbRegMem | subcbMemReg |
    subcbRegImm | subcbRbImm3 | subcbRbInd | xorRwRw | xorRegMem | xorMemReg | xorRegImm | xorRwImm3 | xorRwInd |
    xorbRbRb | xorbRegMem | xorbMemReg | xorbRegImm | xorbRbImm3 | xorbRbInd | andRwRw | andRegMem | andMemReg |
    andRegImm | andRwImm3 | andRwInd | andbRbRb | andbRegMem | andbMemReg | andbRegImm | andbRbImm3 | andbRbInd |
    orRwRw | orRegMem | orMemReg | orRegImm | orRwImm3 | orRwInd | orbRbRb | orbRegMem | orbMemReg | orbRegImm |
    orbRbImm3 | orbRbInd =>
    exact seqInstr_keeps (alu_keeps h _ _ _ _ _) ht
  | addRwInc | addbRbInc | addcRwInc | addcbRbInc | subRwInc | subbRbInc | subcRwInc | subcbRbInc | xorRwInc |
    xorbRbInc | andRwInc | andbRbInc | orRwInc | orbRbInc =>
    exact seqInstr_keeps (aluInc_keeps h _ _ _ _ _) ht
  | cmpRwRw | cmpRegMem | cmpRegImm | cmpRwImm3 | cmpRwInd | cmpbRbRb | cmpbRegMem | cmpbRegImm | cmpbRbImm3 |
    cmpbRbInd =>
    exact seqInstr_keeps (compare_keeps h _ _ _ _) ht
  | cmpRwInc | cmpbRbInc => exact seqInstr_keeps (compareInc_keeps h _ _ _ _) ht
  | bfldl | bfldh => exact seqInstr_keeps (bitField_keeps h _ _ _ _ _) ht
  | bcmp => exact seqInstr_keeps (bitCompare_keeps h _ _ _ _ _) ht
  | bmovn | bmov => exact seqInstr_keeps (bitMove_keeps h _ _ _ _ _ _) ht
  | bor | band | bxor => exact seqInstr_keeps (bitLogic_keeps h _ _ _ _ _ _) ht
  | jb | jnb => exact runInstr_keeps (jumpBit_keeps h _ _ _ _ _) ht
  | jbc | jnbs => exact runInstr_keeps (jumpBitModify_keeps h _ _ _ _ _) ht
  | calla => exact runInstr_keeps (callAbs_keeps h _ _ _) ht
  | calls => exact runInstr_keeps (callSeg_keeps h _ _ _) ht
  | jmpa => exact runInstr_keeps (jumpAbs_keeps h _ _ _) ht
  | jmps => exact runInstr_keeps (len := 4#16) (jumpSeg_keeps h _ _ _) ht
  | mul | mulu => exact seqInstr_keeps (multiply_keeps h _ _ _ _) ht
  | prior => exact seqInstr_keeps (prioritize_keeps h _ _ _) ht
  | div | divu | divl | divlu => exact seqInstr_keeps (divide_keeps h _ _ _) ht
  | trap => exact runInstr_keeps (softwareTrap_keeps h _ _) ht
  | calli => exact runInstr_keeps (callInd_keeps h _ _ _) ht
  | callr => exact runInstr_keeps (callRel_keeps h _ _) ht
  | ret => exact runInstr_keeps (returnNear_keeps h _) ht
  | rets => exact runInstr_keeps (returnSeg_keeps h _) ht
  | retp => exact runInstr_keeps (returnPop_keeps h _ _) ht
  | reti => exact runInstr_keeps (returnInterrupt_keeps h _) ht
  | rolRwRw | rorRwRw | shlRwRw | shrRwRw | ashrRwRw => exact seqInstr_keeps (shiftReg_keeps h _ _ _ _) ht
  | rolRwImm4 | rorRwImm4 | shlRwImm4 | shrRwImm4 | ashrRwImm4 => exact seqInstr_keeps (shiftBy_keeps h _ _ _ _) ht
  | jmpi => exact runInstr_keeps (jumpInd_keeps h _ _ _) ht
  | nop => exact seqInstr_keeps (len := 2#16) (body := fun _ s => .ok () s) h ht
  | push => exact seqInstr_keeps (pushReg_keeps h _ _) ht
  | pop => exact seqInstr_keeps (popReg_keeps h _ _) ht
  | jmpr => exact runInstr_keeps (jumpRel_keeps h _ _ _) ht
  | bclr | bset => exact seqInstr_keeps (bitPut_keeps h _ _ _ _) ht
  | cmpi1RwImm4 | cmpi1RwMem | cmpi1RwImm16 | cmpi2RwImm4 | cmpi2RwMem | cmpi2RwImm16 | cmpd1RwImm4 | cmpd1RwMem |
    cmpd1RwImm16 | cmpd2RwImm4 | cmpd2RwMem | cmpd2RwImm16 =>
    exact seqInstr_keeps (compareStep_keeps h _ _ _ _) ht
  | neg | negb => exact seqInstr_keeps (negate_keeps h _ _ _) ht
  | cpl | cplb => exact seqInstr_keeps (complement_keeps h _ _ _) ht
  | coxxx83 | coxxx93 | coxxxA3 | costoreB3 | costoreC3 | comovD3 => exact runInstr_keeps (macOpcode_keeps h _) ht
  | movIndMem | movMemInd | movbIndMem | movbMemInd | movRwInd | movbRbInd | movIndRw | movbIndRb | movIndInd |
    movbIndInd | movDispRw | movRwDisp | movbDispRb | movbRbDisp | movRwImm4 | movbRbImm4 | movRegImm | movbRegImm |
    movRwRw | movbRbRb | movRegMem | movbRegMem | movMemReg | movbMemReg =>
    exact seqInstr_keeps (move_keeps h _ _ _ _) ht
  | idle => exact seqInstr_keeps (enterIdle_keeps h _) ht
  | protFault87 | protFault97 | protFaultA7 | protFaultA5 | protFaultB5 | protFaultB7 =>
    exact runInstr_keeps (protectionFault_keeps h _) ht
  | pwrdn => exact seqInstr_keeps (enterPowerDown_keeps h _) ht
  | srvwdt => exact seqInstr_keeps (serviceWatchdog_keeps h _) ht
  | diswdt => exact seqInstr_keeps (disableWatchdog_keeps h _) ht
  | einit => exact seqInstr_keeps (endInit_keeps h _) ht
  | srst => exact runInstr_keeps (len := 4#16) (softwareReset_keeps h _) ht
  | movRwInc | movbRbInc => exact seqInstr_keeps (moveFromInc_keeps h _ _ _ _) ht
  | movDecRw | movbDecRb => exact seqInstr_keeps (moveToDec_keeps h _ _ _ _) ht
  | movIncInd | movbIncInd => exact seqInstr_keeps (moveIncInd_keeps h _ _ _ _) ht
  | movIndInc | movbIndInc => exact seqInstr_keeps (moveIndInc_keeps h _ _ _ _) ht
  | movbzRwRb | movbzRegMem | movbzMemReg | movbsRwRb | movbsRegMem | movbsMemReg =>
    exact seqInstr_keeps (moveExtend_keeps h _ _ _ _) ht
  | scxtRegImm | scxtRegMem => exact seqInstr_keeps (switchContext_keeps h _ _ _) ht
  | atomic => exact seqInstr_keeps (beginAtomic_keeps h _ _) ht
  | extr => exact seqInstr_keeps (beginEsfr_keeps h _ _) ht
  | extsRw | extsrRw => exact seqInstr_keeps (beginSegReg_keeps h _ _ _ _) ht
  | extpRw | extprRw => exact seqInstr_keeps (beginPageReg_keeps h _ _ _ _) ht
  | extsSeg | extsrSeg => exact seqInstr_keeps (beginSegImm_keeps h _ _ _ _) ht
  | extpPag | extprPag => exact seqInstr_keeps (beginPageImm_keeps h _ _ _ _) ht
  | pcall => exact runInstr_keeps (callPush_keeps h _ _ _) ht
  | undef3B | undef44 | undef45 | undef85 | undef8B | undef8C | undef95 | undefC1 | undefC7 | undefE3 | undefE5 |
    undefF5 | undefF8 | undefF9 =>
    exact runInstr_keeps (undefinedOpcode_keeps h _) ht

/-! The sequence counter -/

/-- Where the last instruction of a sequence ends it, the modes end with it (48_system_control.md R337). -/
theorem Inv.countSequence {s : State} (h : Inv s) : Inv (countSequence s) := by
  unfold Machine.countSequence
  split
  · exact { h with count := Nat.zero_le _, modes := fun _ => ⟨rfl, rfl⟩ }
  · next hc => exact { h with count := (Nat.sub_le _ _).trans h.count, modes := fun e => absurd e hc }

theorem afterInstr_keeps {i : Instr} {inside : Bool} {o : Host.Outcome State Fault Refusal} {t : State}
    (ho : ∀ u, o = .next u → Inv u) (ht : afterInstr i inside o = .next t) : Inv t := by
  cases o with
  | next u =>
    simp only [afterInstr, Host.Outcome.next.injEq] at ht
    subst ht
    split
    · exact (ho u rfl).countSequence
    · exact ho u rfl
  | fault e => exact absurd ht (by simp [afterInstr])
  | refused e => exact absurd ht (by simp [afterInstr])

theorem runDecoded_keeps {i : Instr} {s t : State} (h : Inv s) (ht : runDecoded i s = .next t) : Inv t :=
  have hs : Inv (shiftHazards { s with arbHist := ageHistory s.arbHist }) :=
    h.congr rfl rfl rfl rfl rfl rfl rfl rfl rfl rfl rfl
  afterInstr_keeps (fun _ hu => exec_keeps hs hu) ht

/-! The boundary -/

theorem fetch_keeps {s : State} (h : Inv s) : (fetch s).Keeps Inv :=
  (memRead_keeps h .byte _).bind fun _ _ h => Res.Keeps.ite (fun _ => trivial) fun _ =>
    (memRead_keeps h .byte _).bind fun _ _ h => Res.Keeps.ite (fun _ => (memRead_keeps h .byte _).bind fun _ _ h =>
    (memRead_keeps h .byte _).bind fun _ _ h => Keeps.ok h) fun _ => Keeps.ok h

theorem runNext_keeps {s t : State} (h : Inv s) (ht : runNext s = .next t) : Inv t := by
  unfold runNext at ht
  split at ht
  · exact outcomeOf_keeps (raiseB_keeps h _ _) ht
  · have hf := fetch_keeps h
    split at ht
    · next i u he =>
      rw [he] at hf
      exact runDecoded_keeps hf ht
    all_goals exact absurd ht (by simp)

/-- Arbitration that enters an interrupt keeps the invariant (60_exceptions.md R365). -/
theorem arbitrate_keeps {s t : State} (h : Inv s) (ht : arbitrate s = some (.next t)) : Inv t := by
  unfold arbitrate at ht
  split at ht
  · simp at ht
  · split at ht
    · simp at ht
    · split at ht
      · simp at ht
      · split at ht
        · exact outcomeOf_keeps (enterIrq_keeps (h.draw _) _ _) (Option.some.inj ht)
        · simp at ht

theorem boundary_keeps {s t : State} (h : Inv s) (ht : boundary s = .next t) : Inv t := by
  unfold boundary at ht
  split at ht
  · exact absurd ht (by simp)
  split at ht
  · exact outcomeOf_keeps (enterB_keeps h _) ht
  split at ht
  · split at ht
    · exact outcomeOf_keeps (enterA_keeps h _) ht
    · split at ht
      · next o ho => exact arbitrate_keeps h (ho.trans (congrArg some ht))
      · split at ht
        · exact absurd ht (by simp)
        · exact runNext_keeps (h.draw _) ht
  · exact runNext_keeps h ht

theorem advance_keeps {s t : State} (h : Inv s) (ht : advance s = .next t) : Inv t := by
  unfold advance at ht
  split at ht
  · exact boundary_keeps h ht
  · split at ht
    · have hr : Inv { s with run := .running } := h.congr rfl rfl rfl rfl rfl rfl rfl rfl rfl rfl rfl
      exact boundary_keeps hr ht
    · exact Host.Outcome.next.inj ht ▸ h
  · exact Host.Outcome.next.inj ht ▸ h

/-! The environment -/

theorem Inv.deliver {s : State} (h : Inv s) (e : EnvEvent) : Inv (deliver s e) := by
  cases e with
  | reset | watchdogReset => exact h
  | nmi => exact { h with tfr := tfr_or_reserved h.tfr (nmiBit_reserved _) }
  | busWrite a v => exact h.setByte a v
  | irq | nmiPin => exact h.congr rfl rfl rfl rfl rfl rfl rfl rfl rfl rfl rfl

theorem Inv.deliverEvents {s : State} (h : Inv s) (evs : List EnvEvent) : Inv (evs.foldl Machine.deliver s) := by
  induction evs generalizing s with
  | nil => exact h
  | cons e evs ih => exact ih (h.deliver e)

theorem Inv.withInputs {s : State} (h : Inv s) (gs : List (List EnvEvent)) : Inv { s with inputs := gs } :=
  h.congr rfl rfl rfl rfl rfl rfl rfl rfl rfl rfl rfl

theorem Inv.deliverAll {s : State} (h : Inv s) (evs : List EnvEvent) (rest : List (List EnvEvent)) :
    Inv (deliverAll evs rest s) := by
  unfold Machine.deliverAll
  split
  · exact (h.withInputs _).deliverEvents _
  · exact (h.withInputs _).deliverEvents _

theorem stepWith_keeps {evs : List EnvEvent} {rest : List (List EnvEvent)} {s t : State} (h : Inv s)
    (ht : stepWith evs rest s = .next t) : Inv t := by
  unfold stepWith at ht
  split at ht
  · exact Host.Outcome.next.inj ht ▸ (h.withInputs rest).resetCpu
  · split at ht
    · exact Host.Outcome.next.inj ht ▸ h.withInputs rest
    · exact advance_keeps (h.deliverAll evs rest) ht

/-! The obligations -/

/-- Settles O3: a reset, the environment's events, an entry or one instruction; each keeps the invariant. -/
theorem stepKeepsInvariant : Obligations.StepKeepsInvariant := by
  intro s t h ht
  unfold step at ht
  split at ht
  · split at ht
    · exact absurd ht (by simp)
    · exact stepWith_keeps h ht
  · exact stepWith_keeps h ht

/-- Settles O4. -/
theorem resetSatisfiesInvariant : Obligations.ResetSatisfiesInvariant where
  memory := reset_memory_wf
  psw := by decide
  tfr := by decide
  cp := by decide
  sp := by decide
  count := by decide
  modes := by decide
  locked := by decide

end Sys2Proof.Machine
end


section
/-!
PROOFS. Which body `exec` runs for each family of instructions of Safety.lean: one equation per family, so that no later
proof looks into the dispatch.
-/

namespace Sys2Proof.Machine

theorem exec_aluIncInstr (op : AluOp) (w : Width) (n : RegNum) (i : PtrNum) (s : State) :
    exec (aluIncInstr op w n i) s = seqInstr 2#16 (aluInc op w n (i.setWidth 4)) s := by
  cases op <;> cases w <;> rfl

theorem exec_cplInstr (w : Width) (n : RegNum) (s : State) :
    exec (cplInstr w n) s = seqInstr 2#16 (complement w n) s := by
  cases w <;> rfl

theorem exec_negInstr (w : Width) (n : RegNum) (s : State) :
    exec (negInstr w n) s = seqInstr 2#16 (negate w n) s := by
  cases w <;> rfl

theorem exec_divInstr (kind : DivKind) (n : RegNum) (s : State) :
    exec (divInstr kind n) s = seqInstr 2#16 (divide kind n) s := by
  cases kind <;> rfl

theorem exec_bitLogicInstr (op : BitOp) (zz : BitOff) (z : BitPos) (qq : BitOff) (q : BitPos) (s : State) :
    exec (bitLogicInstr op zz z qq q) s = seqInstr 4#16 (bitLogic op zz z qq q) s := by
  cases op <;> rfl

theorem exec_cmpIncInstr (w : Width) (n : RegNum) (i : PtrNum) (s : State) :
    exec (cmpIncInstr w n i) s = seqInstr 2#16 (compareInc w n (i.setWidth 4)) s := by
  cases w <;> rfl

theorem exec_stepInstr (k : StepKind) (n : RegNum) (f : StepForm) (s : State) :
    exec (stepInstr k n f) s = seqInstr f.len (compareStep k.amount n f.src) s := by
  cases k <;> cases f <;> rfl

theorem exec_shiftRegInstr (kind : ShiftKind) (n m : RegNum) (s : State) :
    exec (shiftRegInstr kind n m) s = seqInstr 2#16 (shiftReg kind n m) s := by
  cases kind <;> rfl

theorem exec_shiftImmInstr (kind : ShiftKind) (n : RegNum) (c : BitVec 4) (s : State) :
    exec (shiftImmInstr kind n c) s = seqInstr 2#16 (shiftBy kind n c) s := by
  cases kind <;> rfl

theorem exec_moveInstr (w : Width) (f : MoveForm) (s : State) :
    exec (moveInstr w f) s = seqInstr f.len (move w f.dst f.src) s := by
  cases w <;> cases f <;> rfl

theorem exec_moveFromIncInstr (w : Width) (n m : RegNum) (s : State) :
    exec (moveFromIncInstr w n m) s = seqInstr 2#16 (moveFromInc w n m) s := by
  cases w <;> rfl

theorem exec_moveToDecInstr (w : Width) (m n : RegNum) (s : State) :
    exec (moveToDecInstr w m n) s = seqInstr 2#16 (moveToDec w m n) s := by
  cases w <;> rfl

theorem exec_moveIncIndInstr (w : Width) (n m : RegNum) (s : State) :
    exec (moveIncIndInstr w n m) s = seqInstr 2#16 (moveIncInd w n m) s := by
  cases w <;> rfl

theorem exec_moveIndIncInstr (w : Width) (n m : RegNum) (s : State) :
    exec (moveIndIncInstr w n m) s = seqInstr 2#16 (moveIndInc w n m) s := by
  cases w <;> rfl

theorem exec_extendInstr (x : Extend) (f : ExtendForm) (s : State) :
    exec (extendInstr x f) s = seqInstr f.len (moveExtend x f.dst f.src) s := by
  cases x <;> cases f <;> rfl

theorem exec_extInstr (f : ExtForm) (k : SeqLen) (s : State) :
    exec (f.instr k) s = seqInstr f.len (fun _ s => beginExtend f.esfr f.ovr k s) s := by
  cases f <;> rfl

theorem exec_extRegInstr (seg esfr : Bool) (m : RegNum) (k : SeqLen) (s : State) :
    exec (extRegInstr seg esfr m k) s =
      seqInstr 2#16 (fun _ s => (readGpr .word m s).bind fun p s => beginExtend esfr (regOverride seg p) k s) s := by
  cases seg <;> cases esfr <;> rfl

end Sys2Proof.Machine
end

section
/-!
PROOFS. What the instructions leave unchanged: the frame of an instruction is that of its body (Laws/BodyFrames.lean),
at the addresses computed before it runs.
-/

namespace Sys2Proof.Machine

/-! From the body to the instruction -/

section
variable {α : Type} {i : Instr} {len : Word} {ds : State → Option (List (Width × Addr))}
  {g : State → Option α} {l : State → α → List (Width × Addr)}

/-- An instruction that goes on at IPnext has the frame of its body. -/
theorem frameOf_seqInstr {body : Word → State → Res Unit} (he : ∀ s, exec i s = seqInstr len body s)
    (hb : ∀ s l, NoDevices s → ds s = some l → (body (s.ip + len) s).Rel (FrameExcept l) s) : FrameOf i ds :=
  fun s _ l hn hl ht hf => seqInstr_rel (R := FrameExcept l) (.refl l) .trans (fun u x => (ip_frame l u x).frame)
    (hb s l hn hl) ((he s).symm.trans ht) hf

/-- The same with its addresses computed from one that may be missing. -/
theorem frameOf_seqInstr_map {body : Word → State → Res Unit} (he : ∀ s, exec i s = seqInstr len body s)
    (hb : ∀ s x, NoDevices s → g s = some x → (body (s.ip + len) s).Rel (FrameExcept (l s x)) s) :
    FrameOf i fun s => (g s).map (l s) :=
  frameOf_seqInstr he fun s m hn hm => by
    obtain ⟨x, hx, rfl⟩ := Option.map_eq_some_iff.mp hm
    exact hb s x hn hx

/-- The same with addresses that are always there. -/
theorem frameOf_seqInstr_some {body : Word → State → Res Unit} {l : State → List (Width × Addr)}
    (he : ∀ s, exec i s = seqInstr len body s)
    (hb : ∀ s, NoDevices s → (body (s.ip + len) s).Rel (FrameExcept (l s)) s) : FrameOf i fun s => some (l s) :=
  frameOf_seqInstr he fun s _ hn hm => Option.some.inj hm ▸ hb s hn

/-- An instruction that answers its next IP has the frame of its body. -/
theorem frameOf_runInstr {body : Word → State → Res Word} (he : ∀ s, exec i s = runInstr len body s)
    (hb : ∀ s l, NoDevices s → ds s = some l → (body (s.ip + len) s).Rel (FrameExcept l) s) : FrameOf i ds :=
  fun s _ l hn hl ht hf => runInstr_rel (R := FrameExcept l) .trans (fun u x => (ip_frame l u x).frame)
    (hb s l hn hl) ((he s).symm.trans ht) hf

/-- An instruction that affects no flag and answers its next IP has the flagless frame of its body. -/
theorem flaglessFrameOf_runInstr {body : Word → State → Res Word} (he : ∀ s, exec i s = runInstr len body s)
    (hb : ∀ s l, NoDevices s → ds s = some l → (body (s.ip + len) s).Rel (FlaglessFrame l) s) :
    FlaglessFrameOf i ds := by
  have key : ∀ s t l, NoDevices s → ds s = some l → exec i s = .next t → t.frames = s.frames → FlaglessFrame l s t :=
    fun s t l hn hl ht hf => runInstr_rel (R := FlaglessFrame l) .trans (ip_frame l) (hb s l hn hl)
      ((he s).symm.trans ht) hf
  exact ⟨fun s t l hn hl ht hf => (key s t l hn hl ht hf).frame, fun s t l hn hl ht hf => (key s t l hn hl ht hf).psw⟩

/-- The same with addresses that are always there. -/
theorem flaglessFrameOf_runInstr_some {body : Word → State → Res Word} {l : State → List (Width × Addr)}
    (he : ∀ s, exec i s = runInstr len body s)
    (hb : ∀ s, NoDevices s → (body (s.ip + len) s).Rel (FlaglessFrame (l s)) s) :
    FlaglessFrameOf i fun s => some (l s) :=
  flaglessFrameOf_runInstr he fun s _ hn hm => Option.some.inj hm ▸ hb s hn

/-- An instruction that affects no flag and goes on at IPnext: its body, then that IP. -/
theorem flaglessFrameOf_seqInstr {body : Word → State → Res Unit} (he : ∀ s, exec i s = seqInstr len body s)
    (hb : ∀ s l, NoDevices s → ds s = some l → (body (s.ip + len) s).Rel (FlaglessFrame l) s) :
    FlaglessFrameOf i ds :=
  flaglessFrameOf_runInstr (body := fun nx s => (body nx s).bind fun _ s => .ok nx s) he fun s l hn hl =>
    (hb s l hn hl).seqFlagless fun _ _ _ => ⟨.refl _ _, rfl⟩

end

/-! The obligations -/

/-- Settles O58: each family by the frame of its body. -/
theorem dataFrames : Obligations.DataFrames := by
  refine ⟨fun op w f => ?alu, fun op w n i => ?aluInc, fun w n => ⟨?cpl, ?neg⟩, fun n m => ⟨?mul, ?mulu⟩,
    fun kind n => ?div, fun qq q => ⟨?bset, ?bclr⟩, fun zz z qq q => ⟨?bmov, ?bmovn, ?bcmp⟩,
    fun op zz z qq q => ?bitLogic, fun qq mask d => ⟨?bfldl, ?bfldh⟩, fun w f i hi => ?cmp, fun w n k => ?cmpInc,
    fun k n f => ?step, fun kind n m => ?shiftReg, fun kind n c => ?shiftImm, fun n m => ?prior⟩
  case alu => exact frameOf_seqInstr_map (exec_aluInstr op w f) fun s d hn hd => alu_frame hn op w _ _ _ hd
  case aluInc =>
    refine frameOf_seqInstr (exec_aluIncInstr op w n i) fun s l hn hl => ?_
    obtain ⟨b, hb, hl⟩ := Option.bind_eq_some_iff.mp hl
    obtain ⟨d, hd, hl⟩ := Option.bind_eq_some_iff.mp hl
    obtain ⟨a, ha, hl⟩ := Option.bind_eq_some_iff.mp hl
    exact aluInc_frame hn op w n _ _ hb hd ha hl
  case cpl => exact frameOf_seqInstr_map (exec_cplInstr w n) fun s d hn hd => complement_frame hn w n _ hd
  case neg => exact frameOf_seqInstr_map (exec_negInstr w n) fun s d hn hd => negate_frame hn w n _ hd
  case mul => exact frameOf_seqInstr_some (len := 2#16) (fun _ => rfl) fun s hn => multiply_frame hn true n m _
  case mulu => exact frameOf_seqInstr_some (len := 2#16) (fun _ => rfl) fun s hn => multiply_frame hn false n m _
  case div => exact frameOf_seqInstr_some (exec_divInstr kind n) fun s hn => divide_frame hn kind n _
  case bset => exact frameOf_seqInstr_map (len := 2#16) (fun _ => rfl) fun s a hn ha => bitPut_frame hn true qq q _ ha
  case bclr => exact frameOf_seqInstr_map (len := 2#16) (fun _ => rfl) fun s a hn ha => bitPut_frame hn false qq q _ ha
  case bmov =>
    exact frameOf_seqInstr_map (len := 4#16) (fun _ => rfl) fun s a hn ha => bitMove_frame hn false zz z qq q _ ha
  case bmovn =>
    exact frameOf_seqInstr_map (len := 4#16) (fun _ => rfl) fun s a hn ha => bitMove_frame hn true zz z qq q _ ha
  case bcmp =>
    exact frameOf_seqInstr_some (len := 4#16) (fun _ => rfl) fun s hn => bitCompare_frame hn zz z qq q _
  case bitLogic =>
    exact frameOf_seqInstr_map (exec_bitLogicInstr op zz z qq q) fun s a hn ha => bitLogic_frame hn op zz z qq q _ ha
  case bfldl =>
    exact frameOf_seqInstr_map (len := 4#16) (fun _ => rfl) fun s a hn ha => bitField_frame hn .low qq mask d _ ha
  case bfldh =>
    exact frameOf_seqInstr_map (len := 4#16) (fun _ => rfl) fun s a hn ha => bitField_frame hn .high qq mask d _ ha
  case cmp => exact frameOf_seqInstr_some (exec_cmpInstr hi) fun s hn => compare_frame hn w _ _ _
  case cmpInc => exact frameOf_seqInstr_map (exec_cmpIncInstr w n k) fun s p hn hp => compareInc_frame hn w n _ _ hp
  case step => exact frameOf_seqInstr_map (exec_stepInstr k n f) fun s d hn hd => compareStep_frame hn _ n _ _ hd
  case shiftReg =>
    exact frameOf_seqInstr_map (exec_shiftRegInstr kind n m)
      fun s d hn hd => shiftReg_frame hn kind n m _ hd
  case shiftImm =>
    exact frameOf_seqInstr_map (exec_shiftImmInstr kind n c)
      fun s d hn hd => shiftBy_frame hn kind n c _ hd
  case prior => exact frameOf_seqInstr_map (len := 2#16) (fun _ => rfl) fun s d hn hd => prioritize_frame hn n m _ hd

/-- Settles O59: each family by the frame of its body. -/
theorem moveFrames : Obligations.MoveFrames := by
  refine ⟨fun w f => ?move, fun w n m => ?fromInc, fun w m n => ?toDec, fun w n m => ?incInd, fun w n m => ?indInc,
    fun x f => ?extend⟩
  case move => exact frameOf_seqInstr_map (exec_moveInstr w f) fun s d hn hd => move_frame hn w _ _ _ hd
  case fromInc =>
    refine frameOf_seqInstr (exec_moveFromIncInstr w n m) fun s l hn hl => ?_
    obtain ⟨v, hv, hl⟩ := Option.bind_eq_some_iff.mp hl
    obtain ⟨d, hd, hl⟩ := Option.bind_eq_some_iff.mp hl
    exact moveFromInc_frame hn w n m _ hv hd hl
  case toDec =>
    refine frameOf_seqInstr (exec_moveToDecInstr w m n) fun s l hn hl => ?_
    obtain ⟨pa, ha, hl⟩ := Option.bind_eq_some_iff.mp hl
    obtain ⟨p, hp, hl⟩ := Option.bind_eq_some_iff.mp hl
    obtain ⟨u, hu, hl⟩ := Option.bind_eq_some_iff.mp hl
    obtain ⟨d, hd, rfl⟩ := Option.map_eq_some_iff.mp hl
    exact moveToDec_frame hn w m n _ ha hp hu hd
  case incInd =>
    refine frameOf_seqInstr (exec_moveIncIndInstr w n m) fun s l hn hl => ?_
    obtain ⟨v, hv, hl⟩ := Option.bind_eq_some_iff.mp hl
    obtain ⟨d, hd, hl⟩ := Option.bind_eq_some_iff.mp hl
    exact moveIncInd_frame hn w n m _ hv hd hl
  case indInc =>
    refine frameOf_seqInstr (exec_moveIndIncInstr w n m) fun s l hn hl => ?_
    obtain ⟨v, hv, hl⟩ := Option.bind_eq_some_iff.mp hl
    obtain ⟨d, hd, hl⟩ := Option.bind_eq_some_iff.mp hl
    exact moveIndInc_frame hn w n m _ hv hd hl
  case extend => exact frameOf_seqInstr_map (exec_extendInstr x f) fun s d hn hd => moveExtend_frame hn x _ _ _ hd

/-- Settles O60: each instruction by the frame of its body. -/
theorem controlFrames : Obligations.ControlFrames := by
  refine ⟨?nop, fun cc rel => ?jmpr, fun cc a => ?jmpa, fun cc n => ?jmpi, fun seg a => ?jmps,
    fun qq q rel => ⟨?jb, ?jnb⟩, fun qq q rel => ⟨?jbc, ?jnbs⟩, fun cc a => ?calla, fun cc n => ?calli,
    fun rel => ?callr, fun seg a => ?calls, fun r a => ?pcall, fun r => ?push, fun r => ?pop, fun r x => ?scxtImm,
    fun r a => ?scxtMem, ?ret, ?rets, fun r => ?retp⟩
  case nop =>
    exact flaglessFrameOf_seqInstr (len := 2#16) (body := fun _ s => .ok () s) (fun _ => rfl) fun s l _ _ =>
      ⟨.refl l s, rfl⟩
  case jmpr =>
    exact flaglessFrameOf_runInstr (len := 2#16) (body := jumpRel cc rel) (fun _ => rfl) fun s l _ _ => ⟨.refl l s, rfl⟩
  case jmpa =>
    exact flaglessFrameOf_runInstr (len := 4#16) (body := jumpAbs cc a) (fun _ => rfl) fun s l _ _ => ⟨.refl l s, rfl⟩
  case jmpi => exact flaglessFrameOf_runInstr_some (len := 2#16) (fun _ => rfl) fun s hn => jumpInd_frame hn cc n _
  case jmps =>
    exact flaglessFrameOf_runInstr_some (len := 4#16) (body := jumpSeg seg a) (fun _ => rfl) fun s _ =>
      ⟨csp_frame s seg, rfl⟩
  case jb =>
    exact flaglessFrameOf_runInstr_some (len := 4#16) (fun _ => rfl) fun s hn => jumpBit_frame hn true qq q rel _
  case jnb =>
    exact flaglessFrameOf_runInstr_some (len := 4#16) (fun _ => rfl) fun s hn => jumpBit_frame hn false qq q rel _
  case jbc =>
    refine frameOf_runInstr (len := 4#16) (body := jumpBitModify true qq q rel) (fun _ => rfl) fun s l hn hl => ?_
    obtain ⟨a, ha, hl⟩ := Option.bind_eq_some_iff.mp hl
    obtain ⟨x, hx, rfl⟩ := Option.map_eq_some_iff.mp hl
    exact jumpBitModify_frame hn true qq q rel _ ha hx
  case jnbs =>
    refine frameOf_runInstr (len := 4#16) (body := jumpBitModify false qq q rel) (fun _ => rfl) fun s l hn hl => ?_
    obtain ⟨a, ha, hl⟩ := Option.bind_eq_some_iff.mp hl
    obtain ⟨x, hx, rfl⟩ := Option.map_eq_some_iff.mp hl
    have hb := jumpBitModify_frame hn false qq q rel (s.ip + 4#16) ha hx
    cases hq : x.getLsbD q.toNat
    · simpa [hq] using hb
    · simpa [hq] using hb
  case calla => exact flaglessFrameOf_runInstr_some (len := 4#16) (fun _ => rfl) fun s hn => callAbs_frame hn cc a _
  case calli => exact flaglessFrameOf_runInstr_some (len := 2#16) (fun _ => rfl) fun s hn => callInd_frame hn cc n _
  case callr => exact flaglessFrameOf_runInstr_some (len := 2#16) (fun _ => rfl) fun s hn => callRel_frame hn rel _
  case calls =>
    refine flaglessFrameOf_runInstr (len := 4#16) (body := callSeg seg a) (fun _ => rfl) fun s l hn hl => ?_
    obtain ⟨u, hu, rfl⟩ := Option.map_eq_some_iff.mp hl
    exact callSeg_frame hn seg a _ hu
  case pcall =>
    refine frameOf_runInstr (len := 4#16) (body := callPush r a) (fun _ => rfl) fun s l hn hl => ?_
    obtain ⟨v, hv, hl⟩ := Option.bind_eq_some_iff.mp hl
    obtain ⟨u, hu, rfl⟩ := Option.map_eq_some_iff.mp hl
    exact callPush_frame hn r a _ hv hu
  case push => exact frameOf_seqInstr_some (len := 2#16) (fun _ => rfl) fun s hn => pushReg_frame hn r _
  case pop => exact frameOf_seqInstr_map (len := 2#16) (fun _ => rfl) fun s d hn hd => popReg_frame hn r _ hd
  case scxtImm =>
    refine flaglessFrameOf_seqInstr (len := 4#16) (body := switchContext r (.imm x)) (fun _ => rfl) fun s l hn hl => ?_
    obtain ⟨v, hv, hl⟩ := Option.bind_eq_some_iff.mp hl
    obtain ⟨u, hu, hl⟩ := Option.bind_eq_some_iff.mp hl
    obtain ⟨d, hd, rfl⟩ := Option.map_eq_some_iff.mp hl
    exact switchContext_frame hn r _ _ hv hu hd
  case scxtMem =>
    refine flaglessFrameOf_seqInstr (len := 4#16) (body := switchContext r (.loc (.long a))) (fun _ => rfl)
      fun s l hn hl => ?_
    obtain ⟨v, hv, hl⟩ := Option.bind_eq_some_iff.mp hl
    obtain ⟨u, hu, hl⟩ := Option.bind_eq_some_iff.mp hl
    obtain ⟨d, hd, rfl⟩ := Option.map_eq_some_iff.mp hl
    exact switchContext_frame hn r _ _ hv hu hd
  case ret =>
    exact flaglessFrameOf_runInstr_some (len := 2#16) (body := returnNear) (fun _ => rfl) fun s hn => pop_frame hn
  case rets => exact flaglessFrameOf_runInstr_some (len := 2#16) (fun _ => rfl) fun s hn => returnSeg_frame hn _
  case retp =>
    refine frameOf_runInstr (len := 2#16) (body := returnPop r) (fun _ => rfl) fun s l hn hl => ?_
    obtain ⟨d, hd, rfl⟩ := Option.map_eq_some_iff.mp hl
    exact returnPop_frame hn r _ hd

end Sys2Proof.Machine
end


section
/-!
PROOFS. What the logical instructions, the `[Rwi+]` forms, CPL and NEG store and the flags they set (40_arithmetic.md
R140, R151 to R154; 41_logical.md R180 to R186).
-/

namespace Sys2Proof.Machine

/-- Settles O14: the three operations by `aluResult`, whose flags are the logical ones. -/
theorem logicResult : Obligations.LogicResult := by
  intro op w f s u a b r d hop hb hd ha hu
  have hr : r = aluResult op s.flags a b := by
    obtain ⟨rfl, rfl⟩ | ⟨rfl, rfl⟩ | ⟨rfl, rfl⟩ := hop <;> rfl
  have hflags : aluFlags op s.flags a b = logicFlags r b := by
    obtain ⟨rfl, rfl⟩ | ⟨rfl, rfl⟩ | ⟨rfl, rfl⟩ := hop <;> rfl
  rw [exec_aluInstr_of hb hd ha (hr ▸ hu), hflags]
  rfl

/-- Settles O15: the operation, its flags, then the pointer as it was read plus the width's step. -/
theorem postIncrementResult : Obligations.PostIncrementResult := by
  intro op w n i s u t a b p q d hc hp hl hb hd ha hu ht
  have hv : pokePtr (setFlagsFor d (aluFlags op s.flags a b) u) (s.ip + 2#16) (i.setWidth 4) (p + widthStep w) =
      some t := by
    cases w <;> exact ht
  rw [exec_aluIncInstr, seqInstr_ok (aluInc_of hc hp hl hb hd ha hu hv)]

/-! CPL and NEG -/

/-- 0 - a is the two's complement of a. -/
theorem subValue_zero {k : Nat} (a : BitVec k) : subValue 0 a false = -a := by
  rw [subValue_eq_sub]
  simp [carryNat]

/-- The negative of a value lies in the range of its width unless the value is the lowest negative number. -/
theorem outOfRange_neg (w : Width) (a : BitVec w.bits) :
    outOfRange w.bits (-a.toInt) = decide (a = BitVec.intMin w.bits) := by
  have hiff : a = BitVec.intMin w.bits ↔ a.toInt = (BitVec.intMin w.bits).toInt := BitVec.toInt_inj.symm
  have hlo := BitVec.le_toInt a
  have hhi := BitVec.toInt_lt (x := a)
  cases w <;> simp only [Width.bits, outOfRange, hiff, BitVec.toInt_intMin] at * <;> norm_num at * <;>
    rw [Bool.eq_iff_iff] <;> simp <;> omega

/-- The flags of 0 - a (40_arithmetic.md R153, R154). -/
theorem subFlags_zero (w : Width) (a : BitVec w.bits) :
    subFlags 0 a false true =
      ⟨decide (a = BitVec.intMin w.bits), decide (-a = 0), decide (a = BitVec.intMin w.bits), decide (a ≠ 0),
        (-a).msb⟩ := by
  have hc : decide (0 < a.toNat) = decide (a ≠ 0) := by
    simp [Nat.pos_iff_ne_zero, ← BitVec.toNat_inj]
  have hv := outOfRange_neg w a
  simp only [subFlags, isLowest, subValue_zero, carryNat]
  simp [hv, hc, Bool.beq_eq_decide_eq]

/-- Settles O16. -/
theorem complementNegateResult : Obligations.ComplementNegateResult := by
  intro w n s u a d hd ha
  refine ⟨fun hu => ?_, fun hu => ?_⟩
  · rw [exec_cplInstr, seqInstr_ok (complement_of hd ha hu)]
    rfl
  · rw [exec_negInstr, seqInstr_ok (negate_of hd ha (by rw [subValue_zero]; exact hu)), subFlags_zero]

end Sys2Proof.Machine
end


section
/-!
PROOFS. Multiplication and division (40_arithmetic.md R155 to R162): the 32-bit product and its flags, the quotient and
the remainder where the quotient fits, and the overflow.
-/

namespace Sys2Proof.Machine

/-- The signed range of a word. -/
theorem outOfRange_word (x : Int) : outOfRange 16 x = (decide (x < -32768) || decide (32767 < x)) := rfl

/-! MUL and MULU -/

theorem exec_mulInstr (signed : Bool) (n m : RegNum) (s : State) :
    exec (if signed then .mul n m else .mulu n m) s = seqInstr 2#16 (multiply signed n m) s := by
  cases signed <;> rfl

/-- The exact product modulo 2^32 is the product of the extended operands. -/
theorem ofInt_product (signed : Bool) (a b : Word) :
    BitVec.ofInt 32 (product signed a b) =
      if signed then a.signExtend 32 * b.signExtend 32 else a.setWidth 32 * b.setWidth 32 := by
  cases signed with
  | true => exact BitVec.ofInt_mul ..
  | false =>
    calc BitVec.ofInt 32 ((a.toNat * b.toNat : Nat) : Int)
        = BitVec.ofNat 32 (a.toNat * b.toNat) := BitVec.ofInt_natCast ..
      _ = a.setWidth 32 * b.setWidth 32 := by simp [BitVec.ofNat_mul]

/-- A signed product of words fits 32 bits. -/
theorem toInt_signed_product (a b : Word) : (BitVec.ofInt 32 (product true a b)).toInt = product true a b := by
  have ha := BitVec.le_toInt a
  have ha' := BitVec.toInt_lt (x := a)
  have hb := BitVec.le_toInt b
  have hb' := BitVec.toInt_lt (x := b)
  have hp : product true a b = a.toInt * b.toInt := rfl
  rw [hp]
  norm_num at ha ha' hb hb'
  apply BitVec.toInt_ofInt_eq_self (by norm_num) <;> norm_num <;> nlinarith

/-- An unsigned product of words fits 32 bits. -/
theorem toNat_unsigned_product (a b : Word) :
    ((BitVec.ofInt 32 (product false a b)).toNat : Int) = product false a b := by
  have hlt : a.toNat * b.toNat < 2 ^ 32 := by
    calc a.toNat * b.toNat < 2 ^ 16 * 2 ^ 16 := Nat.mul_lt_mul'' a.isLt b.isLt
      _ = 2 ^ 32 := by norm_num
  have hp : product false a b = ((a.toNat * b.toNat : Nat) : Int) := rfl
  rw [hp, BitVec.ofInt_natCast, BitVec.toNat_ofNat, Nat.mod_eq_of_lt hlt]

/-- The flags of a product, read off its 32 bits (40_arithmetic.md R155, R156). -/
theorem productFlags_eq (signed : Bool) (a b : Word) (p : BitVec 32) (hp : p = BitVec.ofInt 32 (product signed a b)) :
    productFlags signed a b =
      { e := false
        z := decide (p = 0)
        v := if signed then decide (p.toInt < -32768) || decide (32767 < p.toInt) else decide (0xFFFF < p.toNat)
        c := false
        n := p.msb } := by
  cases signed with
  | true =>
    have hi : p.toInt = product true a b := hp ▸ toInt_signed_product a b
    have hz : p.toInt = 0 ↔ p = 0#32 := by rw [← BitVec.toInt_inj]; rfl
    simp only [productFlags, ← hi, outOfRange_word]
    simp [hz]
  | false =>
    have hn : (p.toNat : Int) = product false a b := hp ▸ toNat_unsigned_product a b
    have hz : p.toNat = 0 ↔ p = 0#32 := by rw [← BitVec.toNat_inj]; rfl
    simp only [productFlags, ← hn]
    norm_cast
    simp [hz]

/-- Settles O17. -/
theorem multiplyResult : Obligations.MultiplyResult := by
  intro signed n m s a b p ha hb hp
  rw [← ofInt_product] at hp
  rw [exec_mulInstr, seqInstr_ok (multiply_of ha hb), productFlags_eq signed a b p hp, ← hp]

/-! The DIV family -/

/-- A division whose quotient fits (40_arithmetic.md R157 to R160). -/
theorem exec_divInstr_fits {kind : DivKind} {n : RegNum} {s : State} {d : Word} (hd : gprVal .word s n = some d)
    (hv : divOverflow s.par.sdiv kind s.mdh s.mdl d = false) :
    exec (divInstr kind n) s = .next
      { setFlags (quotientFlags (BitVec.ofInt 16 (quotient s.par.sdiv kind s.mdh s.mdl d)))
          { s with
            mdl := BitVec.ofInt 16 (quotient s.par.sdiv kind s.mdh s.mdl d)
            mdh := BitVec.ofInt 16 (remainder s.par.sdiv kind s.mdh s.mdl d) } with
        ip := s.ip + 2#16 } := by
  rw [exec_divInstr, seqInstr_ok (divide_of hd)]
  simp only [hv]
  rfl

/-- A division that overflows: V is 1, E and C are 0, the rest is drawn (40_arithmetic.md R157 to R160). -/
theorem exec_divInstr_overflows {kind : DivKind} {n : RegNum} {s : State} {d : Word} (hd : gprVal .word s n = some d)
    (hv : divOverflow s.par.sdiv kind s.mdh s.mdl d = true) :
    exec (divInstr kind n) s = .next
      { setFlags (overflowFlags s.draws)
          { s with
            mdl := Config.divQuotient s.draws, mdh := Config.divRemainder s.draws, draws := s.draws + 1 } with
        ip := s.ip + 2#16 } := by
  rw [exec_divInstr, seqInstr_ok (divide_of hd)]
  simp only [hv]
  rfl

/-- The flags of a signed quotient that fits. -/
theorem quotientFlags_ofInt {q : Int} (hlo : -32768 ≤ q) (hhi : q ≤ 32767) :
    quotientFlags (BitVec.ofInt 16 q) = ⟨false, decide (q = 0), false, false, decide (q < 0)⟩ := by
  have hq : (BitVec.ofInt 16 q).toInt = q := BitVec.toInt_ofInt_eq_self (by norm_num) (by omega) (by omega)
  have hz : BitVec.ofInt 16 q = 0 ↔ q = 0 := by rw [← BitVec.toInt_inj, hq]; rfl
  simp only [quotientFlags, BitVec.msb_eq_toInt, hq, Bool.beq_eq_decide_eq, hz]

/-- The flags of an unsigned quotient that fits. -/
theorem quotientFlags_ofNat {q : Nat} (hq : q ≤ 0xFFFF) :
    quotientFlags (BitVec.ofNat 16 q) = ⟨false, decide (q = 0), false, false, decide (0x8000 ≤ q)⟩ := by
  have hn : (BitVec.ofNat 16 q).toNat = q := by simp; omega
  have hz : BitVec.ofNat 16 q = 0 ↔ q = 0 := by rw [← BitVec.toNat_inj, hn]; rfl
  have hm : (BitVec.ofNat 16 q).msb = decide (0x8000 ≤ q) := by
    rw [BitVec.msb_eq_decide, hn]
  simp only [quotientFlags, hm, Bool.beq_eq_decide_eq, hz]

/-- The dividend of DIV or DIVL: MDL, or the 32-bit MD (40_arithmetic.md R157, R158). -/
theorem dividend_signed (long : Bool) (mdh mdl : Word) :
    dividend (if long then .divl else .div) mdh mdl = if long then (mdh ++ mdl).toInt else mdl.toInt := by
  cases long <;> rfl

theorem dividend_unsigned (long : Bool) (mdh mdl : Word) :
    dividend (if long then .divlu else .divu) mdh mdl =
        ((if long then (mdh ++ mdl).toNat else mdl.toNat : Nat) : Int) := by
  cases long <;> rfl

theorem divSigned_signed (long : Bool) : divSigned (if long then .divl else .div) = true := by
  cases long <;> rfl

theorem divSigned_unsigned (long : Bool) : divSigned (if long then .divlu else .divu) = false := by
  cases long <;> rfl

/-- An unsigned quotient is that of the naturals, however SDIV rounds. -/
theorem quotient_unsigned (r : Rounding) {kind : DivKind} {mdh mdl d : Word} {a : Nat} (hk : divSigned kind = false)
    (ha : dividend kind mdh mdl = a) : quotient r kind mdh mdl d = ((a / d.toNat : Nat) : Int) := by
  have hd : divisor kind d = d.toNat := by simp [divisor, hk]
  cases r with
  | towardZero => simp only [quotient, hd, ha, Int.ofNat_tdiv]
  | down => simp only [quotient, hd, ha, Int.fdiv_eq_ediv_of_nonneg _ (Int.natCast_nonneg _), Int.natCast_ediv]

/-- An unsigned remainder is that of the naturals. -/
theorem remainder_unsigned (r : Rounding) {kind : DivKind} {mdh mdl d : Word} {a : Nat} (hk : divSigned kind = false)
    (ha : dividend kind mdh mdl = a) : remainder r kind mdh mdl d = ((a % d.toNat : Nat) : Int) := by
  have hq := quotient_unsigned r (d := d) hk ha
  simp only [remainder, divisor, hk, ha, hq]
  have := Nat.div_add_mod a d.toNat
  push_cast
  rw [Int.emod_def]
  simp
  ring

/-- Settles O18. -/
theorem divideResult : Obligations.DivideResult := by
  intro long n s d hd hne
  refine ⟨fun a q r ha hqr hlo hhi => ?_, fun a ha hfit => ?_⟩
  · rw [← dividend_signed] at ha
    have hdiv : divisor (if long then .divl else .div) d = d.toInt := by simp [divisor, divSigned_signed]
    have hq : quotient s.par.sdiv (if long then .divl else .div) s.mdh s.mdl d = q := by
      obtain ⟨hs, rfl, -⟩ | ⟨hs, rfl, -⟩ := hqr <;> simp only [quotient, hs, hdiv, ha]
    have hr : remainder s.par.sdiv (if long then .divl else .div) s.mdh s.mdl d = r := by
      rw [remainder, hq, hdiv, ← ha]
      obtain ⟨-, rfl, rfl⟩ | ⟨-, rfl, rfl⟩ := hqr
      · rw [Int.tmod_def, mul_comm]
      · rw [Int.fmod_def, mul_comm]
    have hv : divOverflow s.par.sdiv (if long then .divl else .div) s.mdh s.mdl d = false := by
      simp only [divOverflow, divSigned_signed, hq, outOfRange_word, beq_false_of_ne hne]
      simpa using ⟨hlo, hhi⟩
    have key := exec_divInstr_fits hd hv
    rw [hq, hr, quotientFlags_ofInt hlo hhi] at key
    cases long <;> exact key
  · have ha' := (dividend_unsigned long s.mdh s.mdl).trans (congrArg Nat.cast ha.symm)
    have hq := quotient_unsigned s.par.sdiv (d := d) (divSigned_unsigned long) ha'
    have hr := remainder_unsigned s.par.sdiv (d := d) (divSigned_unsigned long) ha'
    have hv : divOverflow s.par.sdiv (if long then .divlu else .divu) s.mdh s.mdl d = false := by
      simp only [divOverflow, divSigned_unsigned, hq, beq_false_of_ne hne]
      simpa using (Int.ofNat_le.mpr hfit)
    have key := exec_divInstr_fits hd hv
    rw [hq, hr, BitVec.ofInt_natCast, BitVec.ofInt_natCast, quotientFlags_ofNat hfit] at key
    cases long <;> exact key

/-- Settles O19: a zero divisor or a quotient out of range is the model's overflow. -/
theorem divideOverflow : Obligations.DivideOverflow := by
  intro kind n s d a q hd ha hq hover
  have hdividend : dividend kind s.mdh s.mdl = a := by
    rw [ha]
    cases kind <;> rfl
  have hv : divOverflow s.par.sdiv kind s.mdh s.mdl d = true := by
    obtain rfl | ⟨hkind, hrange⟩ | ⟨rfl, hbig⟩ := hover
    · simp [divOverflow]
    · have hsigned : divSigned kind = true := by
        obtain rfl | rfl := hkind <;> rfl
      have hquot : quotient s.par.sdiv kind s.mdh s.mdl d = q := by
        rw [hq]
        simp only [quotient, hdividend, divisor, hsigned]
        cases s.par.sdiv <;> rfl
      simp only [divOverflow, hsigned, hquot, outOfRange_word]
      simp [hrange]
    · have ha' : a = ((s.mdh ++ s.mdl).toNat : Int) := ha
      have hquot := quotient_unsigned s.par.sdiv (d := d) (kind := .divlu) rfl (hdividend.trans ha')
      have hbig' : 0xFFFF < ((((s.mdh ++ s.mdl).toNat / d.toNat : Nat)) : Int) := by
        rw [Int.natCast_ediv, ← ha']
        exact hbig
      rw [divOverflow, hquot]
      simp only [divSigned, decide_eq_true hbig']
      simp
  exact ⟨_, _, _, _, _, exec_divInstr_overflows hd hv⟩

end Sys2Proof.Machine
end


section
/-!
PROOFS. The bit instructions (42_boolean_bit.md): a word said bit by bit is the word with one bit replaced, and so each
instruction stores it.
-/

namespace Sys2Proof.Machine

/-- A word whose bits are those of another but for one is that word with the bit replaced (20_memory.md R65). -/
theorem eq_setBit {x y : Word} {q : BitPos} {b : Bool}
    (h : ∀ k < 16, y.getLsbD k = if k = q.toNat then b else x.getLsbD k) : y = setBit x q b :=
  BitVec.eq_of_getLsbD_eq fun k hk => (h k hk).trans (putBit_getLsbD x b hk).symm

theorem exec_bitPut (v : Bool) (qq : BitOff) (q : BitPos) (s : State) :
    exec (if v then .bset qq q else .bclr qq q) s = seqInstr 2#16 (bitPut v qq q) s := by
  cases v <;> rfl

theorem exec_bitMove (negated : Bool) (zz qq : BitOff) (z q : BitPos) (s : State) :
    exec (if negated then .bmovn zz z qq q else .bmov zz z qq q) s = seqInstr 4#16 (bitMove negated zz z qq q) s := by
  cases negated <;> rfl

/-- Settles O21. -/
theorem bitSetClearResult : Obligations.BitSetClearResult := by
  intro v qq q s u a x y ha hx hy hu
  rw [eq_setBit hy] at hu
  rw [exec_bitPut, seqInstr_ok (bitPut_of ha hx hu)]
  rfl

/-- Settles O22. -/
theorem bitMoveResult : Obligations.BitMoveResult := by
  intro negated zz qq z q s u a x y src b hsrc hb ha hx hy hu
  subst hb
  rw [eq_setBit hy] at hu
  rw [exec_bitMove, seqInstr_ok (bitMove_of hsrc ha hx hu)]
  rfl

/-- Settles O23: the flags are those of the two bits; BAND, BOR and BXOR store their function as well. -/
theorem bitLogicResult : Obligations.BitLogicResult := by
  intro zz qq z q s a x src d b hsrc hb ha hx hd
  subst hb hd
  have hflags (d b : Bool) : twoBitFlags d b = ⟨false, !(d || b), d || b, d && b, d != b⟩ := rfl
  refine ⟨fun op u y hy hu => ?_, ?_⟩
  · have hy' : y = setBit x z (bitResult op (x.getLsbD z.toNat) (src.getLsbD q.toNat)) :=
      eq_setBit fun k hk => by cases op <;> simpa [bitResult] using hy k hk
    rw [hy'] at hu
    rw [exec_bitLogicInstr, seqInstr_ok (bitLogic_of hsrc ha hx hu), hflags]
  · have hz : bitWordVal s zz = some x := Option.bind_eq_some_iff.mpr ⟨a, ha, hx⟩
    rw [← hflags]
    exact seqInstr_ok (bitCompare_of hsrc hz)

/-- Settles O24: the low or the high byte masked and ORed, the word's Z and N. -/
theorem bitFieldResult : Obligations.BitFieldResult := by
  intro qq mask d s u a x y ha hx hu
  refine ⟨fun hy => ?_, fun hy => ?_⟩
  · subst hy
    exact seqInstr_ok (len := 4#16) (bitField_of (h := .low) ha hx hu)
  · subst hy
    exact seqInstr_ok (len := 4#16) (bitField_of (h := .high) ha hx hu)

end Sys2Proof.Machine
end

section
/-!
PROOFS. The comparisons (43_compare_loop.md): what CMP, CMPI and CMPD leave, and what the condition codes say of the
flags of a subtraction (10_state.md R32).
-/

namespace Sys2Proof.Machine

/-- Settles O25. -/
theorem compareResult : Obligations.CompareResult := by
  intro w s a b
  refine ⟨fun f i hi hb ha => exec_cmpInstr_of hi hb ha, fun n k p q t hc hp hl hb ha ht => ?_⟩
  have hv : pokePtr (setFlags (subFlags a b false true) s) (s.ip + 2#16) (k.setWidth 4) (p + widthStep w) = some t := by
    cases w <;> exact ht
  rw [exec_cmpIncInstr, seqInstr_ok (compareInc_of hc hp hl hb ha hv)]

/-- Settles O26. -/
theorem compareStepResult : Obligations.CompareStepResult := by
  intro k n f s u a b d hb hd ha hu
  rw [exec_stepInstr, seqInstr_ok (compareStep_of hb hd ha hu)]

/-- The flags written into the PSW of a machine are the flags it holds. -/
theorem flags_setFlags {s : State} (h : s.par.Legal) (f : Flags) : (setFlags f s).flags = f :=
  flagsOf_putFlags h s.psw f

/-- Z of a difference: the operands are equal. -/
theorem subFlags_z {k : Nat} (a b : BitVec k) : (subFlags a b false true).z = true ↔ a = b := by
  simp [subFlags, subValue_eq_sub, carryNat, BitVec.sub_eq_iff_eq_add]

/-- C of a difference: the borrow of the unsigned subtraction. -/
theorem subFlags_c {k : Nat} (a b : BitVec k) : (subFlags a b false true).c = true ↔ a.toNat < b.toNat := by
  simp [subFlags, carryNat]

/-- E of a difference: the second operand is the lowest negative number. -/
theorem subFlags_e {k : Nat} (a b : BitVec k) : (subFlags a b false true).e = true ↔ b = BitVec.intMin k := by
  simp [subFlags, isLowest]

/-- Reduced modulo 2M, a number less than 2M from 0 is negative or out of the range of -M to M - 1, but not both, where
it is negative. -/
theorem bmod_neg_xor_outside {M x : Int} {m : Nat} (hm : (m : Int) = 2 * M) (hlo : -(2 * M) < x) (hhi : x < 2 * M) :
    (decide (x.bmod m < 0) ^^ (decide (x < -M) || decide (M ≤ x))) = decide (x < 0) := by
  have hlow : x < -M → x.bmod m = x + 2 * M := fun h => by
    rw [← hm, ← Int.add_bmod_right, Int.bmod_eq_of_le] <;> omega
  have hhigh : M ≤ x → x.bmod m = x - 2 * M := fun h => by
    rw [← hm, ← Int.sub_bmod_right, Int.bmod_eq_of_le] <;> omega
  have hmid : -M ≤ x → x < M → x.bmod m = x := fun h h' => by
    rw [Int.bmod_eq_of_le] <;> omega
  by_cases h1 : x < -M
  · have h2 : ¬ x + 2 * M < 0 := by omega
    have h3 : x < 0 := by omega
    simp [hlow h1, h1, h2, h3]
  · by_cases h2 : M ≤ x
    · have h3 : x - 2 * M < 0 := by omega
      have h4 : ¬ x < 0 := by omega
      simp [hhigh h2, h2, h3, h4]
    · simp [hmid (by omega) (by omega), h1, h2]

/-- N xor V of a difference: the signed order of the operands. -/
theorem subFlags_n_xor_v (w : Width) (a b : BitVec w.bits) :
    ((subFlags a b false true).n ^^ (subFlags a b false true).v) = true ↔ a.toInt < b.toInt := by
  have ha := BitVec.le_toInt a
  have ha' := BitVec.toInt_lt (x := a)
  have hb := BitVec.le_toInt b
  have hb' := BitVec.toInt_lt (x := b)
  have hm : ((2 ^ w.bits : Nat) : Int) = 2 * 2 ^ (w.bits - 1) := by cases w <;> rfl
  have hx := bmod_neg_xor_outside hm (x := a.toInt - b.toInt) (by omega) (by omega)
  have hr : (subValue a b false).toInt = (a.toInt - b.toInt).bmod (2 ^ w.bits) := by
    rw [subValue_eq_sub]
    simp [carryNat, BitVec.toInt_sub]
  have hflags : ((subFlags a b false true).n ^^ (subFlags a b false true).v) = decide (a.toInt - b.toInt < 0) := by
    rw [← hx, ← hr, ← BitVec.msb_eq_toInt]
    simp [subFlags, outOfRange, carryNat]
  simp [hflags]

/-- Settles O27. -/
theorem compareThenCondition : Obligations.CompareThenCondition := by
  intro w s t a b hl ht
  have hf : t.flags = subFlags a b false true := ht ▸ flags_setFlags hl _
  have hz := subFlags_z a b
  have hc := subFlags_c a b
  have he := subFlags_e a b
  have hs := subFlags_n_xor_v w a b
  have hzn : a = b ↔ a.toNat = b.toNat := BitVec.toNat_inj.symm
  have hzi : a = b ↔ a.toInt = b.toInt := BitVec.toInt_inj.symm
  simp only [hf, condHolds, Bool.not_eq_true', Bool.or_eq_true, ← Bool.not_eq_true, hz, hc, he, hs, not_or]
  refine ⟨trivial, trivial, trivial, ?nc, ?ugt, ?ule, trivial, ?sge, ?sgt, ?sle, trivial⟩
  case nc | sge => omega
  case ugt | ule => rw [hzn]; omega
  case sgt | sle => rw [hzi]; omega

end Sys2Proof.Machine
end


section
/-!
PROOFS. The condition table (10_state.md R30, R32): the flags at their bits of the default layout, and the test of each
of the sixteen codes.
-/

namespace Sys2Proof.Machine

/-- A bit of the PSW after its flags are written: one flag of the five, or as before. -/
theorem putFlags_getLsbD (l : PswLayout) (psw : Word) (f : Flags) {k : Nat} (hk : k < 16) :
    (putFlags l psw f).getLsbD k =
      if k = l.e.val then f.e else if k = l.z.val then f.z else if k = l.v.val then f.v else
        if k = l.c.val then f.c else if k = l.n.val then f.n else psw.getLsbD k := by
  simp only [putFlags, putBit_getLsbD _ _ hk]

/-- Settles O28: the bits of the default layout by number, then each code's test. -/
theorem conditionTable : Obligations.ConditionTable := by
  refine fun s => ⟨fun hl => ?layout, fun n c v z e hf => ?codes⟩
  case layout =>
    have hflags : s.flags = flagsOf PswLayout.default s.psw := by rw [State.flags, hl]
    have hbits (f : Flags) : (setFlags f s).psw = putFlags PswLayout.default s.psw f := by rw [setFlags, hl]
    refine ⟨by rw [hflags]; rfl, by rw [hflags]; rfl, by rw [hflags]; rfl, by rw [hflags]; rfl, by rw [hflags]; rfl,
      fun f k hk => ?_⟩
    rw [hbits, putFlags_getLsbD _ _ _ hk]
    interval_cases k <;> rfl
  case codes =>
    rw [hf]
    simp [condOf, condHolds]

end Sys2Proof.Machine
end

section
/-!
PROOFS. The shifts and rotates and PRIOR (44_prioritize_shift.md): each bit of a result by its number, so that a count
is a sequence of one-bit steps; PRIOR's count from below the most significant 1.
-/

namespace Sys2Proof.Machine

/-! The bits of a result -/

/-- The bit of the operand that a shift or rotate by `c` brings to place `k`, if any. -/
def shiftSource (kind : ShiftKind) (c k : Nat) : Option Nat :=
  match kind with
  | .shl => if k < c then none else some (k - c)
  | .shr => if k + c < 16 then some (k + c) else none
  | .ashr => some (min (k + c) 15)
  | .rol => some ((k + (16 - c)) % 16)
  | .ror => some ((k + c) % 16)

/-- A bit of a shifted or rotated word: the bit of its source, or 0 (44_prioritize_shift.md R222 to R226). -/
theorem shiftResult_getLsbD (kind : ShiftKind) (a : Word) {c k : Nat} (hc : c < 16) (hk : k < 16) :
    (shiftResult kind a c).getLsbD k = ((shiftSource kind c k).map a.getLsbD).getD false := by
  cases kind with
  | shl =>
    simp only [shiftResult, shiftSource, BitVec.getLsbD_shiftLeft, hk]
    split <;> simp [*]
  | shr =>
    simp only [shiftResult, shiftSource, BitVec.getLsbD_ushiftRight]
    split
    · simp [Nat.add_comm]
    · exact BitVec.getLsbD_of_ge _ _ (by omega)
  | ashr =>
    simp only [shiftResult, shiftSource, BitVec.getLsbD_sshiftRight, Option.map_some, Option.getD_some]
    by_cases h : c + k < 16
    · have hm : min (k + c) 15 = c + k := by omega
      simp [h, hm, Nat.not_le.mpr hk]
    · have hm : min (k + c) 15 = 15 := by omega
      simp [h, hm, Nat.not_le.mpr hk, BitVec.msb_eq_getLsbD_last]
  | rol =>
    simp only [shiftResult, shiftSource, BitVec.getLsbD_or, BitVec.getLsbD_shiftLeft, BitVec.getLsbD_ushiftRight,
      Option.map_some, Option.getD_some]
    by_cases h : k < c
    · have hm : (k + (16 - c)) % 16 = 16 - c + k := by omega
      simp [h, hm]
    · have hm : (k + (16 - c)) % 16 = k - c := by omega
      have h0 : a.getLsbD (16 - c + k) = false := BitVec.getLsbD_of_ge _ _ (by omega)
      simp [h, hm, h0, hk]
  | ror =>
    simp only [shiftResult, shiftSource, BitVec.getLsbD_or, BitVec.getLsbD_shiftLeft, BitVec.getLsbD_ushiftRight,
      Option.map_some, Option.getD_some]
    by_cases h : k < 16 - c
    · have hm : (k + c) % 16 = c + k := by omega
      simp [h, hm]
    · have hm : (k + c) % 16 = k - (16 - c) := by omega
      have h0 : a.getLsbD (c + k) = false := BitVec.getLsbD_of_ge _ _ (by omega)
      simp [h, hm, h0, hk]

/-- A count of 0 leaves the word. -/
theorem shiftResult_zero (kind : ShiftKind) (a : Word) : shiftResult kind a 0 = a :=
  BitVec.eq_of_getLsbD_eq fun k hk => by
    rw [shiftResult_getLsbD kind a (by omega) hk]
    cases kind <;> simp [shiftSource, hk, Nat.mod_eq_of_lt hk, Nat.min_eq_left (Nat.le_of_lt_succ hk)]

/-- The source of a bit under a count of `c + 1`: under a one-bit step, then under a count of `c`. -/
theorem shiftSource_succ (kind : ShiftKind) {c k : Nat} (hc : c < 15) (hk : k < 16) :
    shiftSource kind (c + 1) k = (shiftSource kind 1 k).bind (shiftSource kind c) := by
  cases kind with
  | shl => grind [shiftSource]
  | shr => grind [shiftSource]
  | ashr => simp only [shiftSource, Option.bind_some, Option.some.injEq]; omega
  | rol => simp only [shiftSource, Option.bind_some, Option.some.injEq]; omega
  | ror => simp only [shiftSource, Option.bind_some, Option.some.injEq]; omega

theorem shiftSource_lt (kind : ShiftKind) {c k j : Nat} (hk : k < 16) (h : shiftSource kind c k = some j) : j < 16 := by
  cases kind <;> simp only [shiftSource] at h <;> grind

/-- A count of `c + 1` is a count of `c`, then a one-bit step. -/
theorem shiftResult_succ (kind : ShiftKind) (a : Word) {c : Nat} (hc : c < 15) :
    shiftResult kind a (c + 1) = shiftResult kind (shiftResult kind a c) 1 :=
  BitVec.eq_of_getLsbD_eq fun k hk => by
    rw [shiftResult_getLsbD kind a (by omega) hk, shiftResult_getLsbD kind _ (by omega) hk, shiftSource_succ kind hc hk]
    cases hs : shiftSource kind 1 k with
    | none => rfl
    | some j =>
      simp only [Option.bind_some, Option.map_some, Option.getD_some]
      exact (shiftResult_getLsbD kind a (by omega) (shiftSource_lt kind hk hs)).symm

/-! The carry and V -/

/-- The place of the bit that leaves last under a count of `c + 1`. -/
def leavingBit (kind : ShiftKind) (c : Nat) : Nat :=
  match kind with
  | .shl => 15 - c
  | .rol => 15 - c
  | _ => c

/-- The carry of a count of `c + 1` is the bit that leaves last. -/
theorem shiftCarry_succ (kind : ShiftKind) (a : Word) {c : Nat} (hc : c < 15) :
    shiftCarry kind a (c + 1) = a.getLsbD (leavingBit kind c) := by
  cases kind with
  | shl => simp [shiftCarry, leavingBit, show 16 - (c + 1) = 15 - c by omega]
  | shr => simp [shiftCarry, leavingBit]
  | ashr => simp [shiftCarry, leavingBit]
  | rol =>
    simp only [shiftCarry, leavingBit, shiftResult_getLsbD .rol a (show c + 1 < 16 by omega) (show 0 < 16 by omega)]
    simp [shiftSource, Nat.mod_eq_of_lt (show 15 - c < 16 by omega)]
  | ror =>
    simp only [shiftCarry, leavingBit, shiftResult_getLsbD .ror a (show c + 1 < 16 by omega) (show 15 < 16 by omega)]
    simp [shiftSource, show (15 + (c + 1)) % 16 = c by omega]

/-- The bit that leaves last under `c + 1` is the one that leaves the word shifted by `c`. -/
theorem shiftSource_leavingBit (kind : ShiftKind) {c : Nat} (hc : c < 15) :
    shiftSource kind c (leavingBit kind 0) = some (leavingBit kind c) := by
  cases kind <;> grind [shiftSource, leavingBit]

theorem shiftCarry_step (kind : ShiftKind) (a : Word) {c : Nat} (hc : c < 15) :
    shiftCarry kind a (c + 1) = shiftCarry kind (shiftResult kind a c) 1 := by
  have hleave : leavingBit kind 0 < 16 := by cases kind <;> simp [leavingBit]
  rw [shiftCarry_succ kind a hc, shiftCarry_succ kind _ (show 0 < 15 by omega),
    shiftResult_getLsbD kind a (by omega) hleave, shiftSource_leavingBit kind hc]
  rfl

/-- V's bit collects the bits lost before the last: under `c + 1` also the last one of `c`. -/
theorem shiftSticky_succ (a : Word) (c : Nat) :
    shiftSticky a (c + 1) = (shiftSticky a c || decide (c ≠ 0) && a.getLsbD (c - 1)) := by
  cases c with
  | zero => rfl
  | succ n =>
    have hlow : (a.toNat % 2 ^ (n + 1) ≠ 0) ↔ (a.toNat % 2 ^ n ≠ 0 ∨ a.getLsbD n = true) := by
      rw [Nat.mod_pow_succ, BitVec.getLsbD, Nat.testBit_eq_decide_div_mod_eq]
      rcases Nat.mod_two_eq_zero_or_one (a.toNat / 2 ^ n) with h | h <;> simp [h]
    cases n with
    | zero => simp [shiftSticky, BitVec.getLsbD, Nat.testBit_zero, Nat.mod_one]
    | succ n => simp only [shiftSticky]; simp [hlow]

theorem shiftCarry_right (kind : ShiftKind) (a : Word) (hk : kind = .shr ∨ kind = .ashr ∨ kind = .ror) {c : Nat}
    (hc : c < 15) : shiftCarry kind a c = (decide (c ≠ 0) && a.getLsbD (c - 1)) := by
  cases c with
  | zero => simp [shiftCarry]
  | succ n =>
    rw [shiftCarry_succ kind a (by omega)]
    rcases hk with rfl | rfl | rfl <;> simp [leavingBit]

/-- The bits after a one-bit step, each by its source. -/
theorem shiftResult_one (kind : ShiftKind) (a : Word) {k : Nat} (hk : k < 16) :
    (shiftResult kind a 1).getLsbD k =
      match kind with
      | .shl => decide (k ≠ 0) && a.getLsbD (k - 1)
      | .shr => decide (k ≠ 15) && a.getLsbD (k + 1)
      | .ashr => a.getLsbD (if k = 15 then 15 else k + 1)
      | .rol => a.getLsbD (if k = 0 then 15 else k - 1)
      | .ror => a.getLsbD (if k = 15 then 0 else k + 1) := by
  rw [shiftResult_getLsbD kind a (show 1 < 16 by omega) hk]
  cases kind with
  | shl => by_cases h : k = 0 <;> simp [shiftSource, h]
  | shr =>
    by_cases h : k = 15
    · simp [shiftSource, h]
    · simp [shiftSource, h, show k + 1 < 16 by omega]
  | ashr => grind [shiftSource]
  | rol => grind [shiftSource]
  | ror => grind [shiftSource]

/-- Settles O30: each bit by its source, the carry by the bit that leaves. -/
theorem shiftIsRepeatedStep : Obligations.ShiftIsRepeatedStep := by
  refine fun kind a => ⟨shiftResult_zero kind a, rfl, ?vZero, fun k hk => shiftResult_one kind a hk, ?cOne,
    fun c hc => ⟨shiftResult_succ kind a hc, shiftCarry_step kind a hc, ?vSucc⟩,
    fun c _ => ⟨rfl, ?z, ?n⟩⟩
  case vZero => cases kind <;> rfl
  case cOne => exact (shiftCarry_succ kind a (show 0 < 15 by omega)).trans (by cases kind <;> rfl)
  case vSucc =>
    cases kind with
    | shl => rfl
    | rol => rfl
    | shr => exact (shiftSticky_succ a c).trans (by rw [← shiftCarry_right .shr a (by simp) hc]; rfl)
    | ashr => exact (shiftSticky_succ a c).trans (by rw [← shiftCarry_right .ashr a (by simp) hc]; rfl)
    | ror => exact (shiftSticky_succ a c).trans (by rw [← shiftCarry_right .ror a (by simp) hc]; rfl)
  case z => exact beq_eq_decide _ _
  case n => exact BitVec.msb_eq_getLsbD_last (shiftResult kind a c)

/-! PRIOR -/

/-- The zeros above the most significant 1 of a word below `2 ^ k`: shifting by their number brings it to place
`k - 1`. -/
theorem leadingZeros_spec (x : Word) (hx : x ≠ 0) : ∀ {k : Nat}, x.toNat < 2 ^ k →
    leadingZeros x k < k ∧ 2 ^ (k - 1) ≤ x.toNat * 2 ^ leadingZeros x k ∧ x.toNat * 2 ^ leadingZeros x k < 2 ^ k
  | 0, h => absurd (BitVec.eq_of_toNat_eq (by simpa using h)) hx
  | k + 1, h => by
    rw [leadingZeros, BitVec.getLsbD]
    split
    next hbit =>
      have hge : 2 ^ k ≤ x.toNat := Nat.ge_two_pow_of_testBit hbit
      simp [hge, h]
    next hbit =>
      have hlt : x.toNat < 2 ^ k := by
        refine Nat.lt_pow_two_of_testBit _ fun i hi => ?_
        rcases hi.eq_or_lt with rfl | hi
        · simpa using hbit
        · exact Nat.testBit_lt_two_pow (h.trans_le (Nat.pow_le_pow_right (by omega) hi))
      obtain ⟨hk, hlo, hhi⟩ := leadingZeros_spec x hx hlt
      have hpow : 2 ^ k = 2 ^ (k - 1) * 2 := by rw [← Nat.pow_succ]; congr 1; omega
      refine ⟨by omega, ?_, ?_⟩ <;> simp only [Nat.pow_succ, ← Nat.mul_assoc, Nat.add_sub_cancel] <;> omega

/-- A number has one scaling by a power of two into the top half of 16 bits. -/
theorem normalization_unique {x m n : Nat} (hm : x * 2 ^ m < 0x10000) (hm' : 0x8000 ≤ x * 2 ^ m)
    (hn : x * 2 ^ n < 0x10000) (hn' : 0x8000 ≤ x * 2 ^ n) : m = n := by
  have step {i j : Nat} (hij : i < j) (hi : 0x8000 ≤ x * 2 ^ i) : 0x10000 ≤ x * 2 ^ j :=
    calc 0x10000 ≤ x * 2 ^ (i + 1) := by rw [Nat.pow_succ, ← Nat.mul_assoc]; omega
      _ ≤ x * 2 ^ j := Nat.mul_le_mul_left _ (Nat.pow_le_pow_right (by omega) hij)
  rcases Nat.lt_trichotomy m n with h | h | h
  · have := step h hm'; omega
  · exact h
  · have := step h hn'; omega

/-- PRIOR's count is the one that the normalisation bounds fix. -/
theorem priorCount_eq {x y : Word} (hy : x = 0 ∧ y = 0 ∨
    x ≠ 0 ∧ y.toNat ≤ 15 ∧ x.toNat * 2 ^ y.toNat < 0x10000 ∧ 0x8000 ≤ x.toNat * 2 ^ y.toNat) : priorCount x = y := by
  rcases hy with ⟨rfl, rfl⟩ | ⟨hx, -, hlt, hle⟩
  · rfl
  · obtain ⟨hk, hlo, hhi⟩ := leadingZeros_spec x hx (k := 16) x.isLt
    have hcount : leadingZeros x 16 = y.toNat := normalization_unique hhi hlo hlt hle
    rw [priorCount, if_neg hx, hcount, BitVec.ofNat_toNat, BitVec.setWidth_eq]

/-- Settles O31. -/
theorem prioritizeResult : Obligations.PrioritizeResult := by
  intro n m s u x y d hx hd hy hu
  rw [← priorCount_eq hy] at hu
  have hz : decide (x = 0) = (x == 0) := (beq_eq_decide _ _).symm
  rw [hz]
  exact seqInstr_ok (len := 2#16) (prioritize_of hx hd hu)

end Sys2Proof.Machine
end

section
/-!
PROOFS. The shift instructions. The obligation has the name of a function of the model, so the theorem stands one namespace
higher.
-/

namespace Sys2Proof

open Machine

/-- Settles O29. -/
theorem shiftResult : Obligations.ShiftResult := by
  intro kind n c s u d a hd ha hu
  refine ⟨?_, fun m x hx hc => ?_⟩
  · rw [exec_shiftImmInstr, seqInstr_ok (shiftBy_of hd ha hu)]
  · have hcount : x.extractLsb' 0 4 = c := BitVec.eq_of_toNat_eq (by simpa using hc)
    subst hcount
    rw [exec_shiftRegInstr, seqInstr_ok (shiftReg_of hx hd ha hu)]

end Sys2Proof
end


section
/-!
PROOFS. The moves (45_data_movement.md): each form by the lemma about its body (Laws/Results.lean).
-/

namespace Sys2Proof.Machine

/-- The flags of a moved value, written out. -/
theorem moveFlags_eq {k : Nat} (f : Flags) (v : BitVec k) :
    moveFlags f v = ⟨decide (v = BitVec.intMin k), decide (v = 0), f.v, f.c, v.msb⟩ := rfl

/-- Settles O32. -/
theorem moveResult : Obligations.MoveResult := by
  intro w f s u v d hv hd hu
  rw [exec_moveInstr, seqInstr_ok (move_of hv hd hu), moveFlags_eq]

/-- Settles O33. -/
theorem movePointerResult : Obligations.MovePointerResult := by
  intro w n m s u t v p step q d hstep
  have hw : step = widthStep w := by subst hstep; cases w <;> rfl
  subst hw
  refine ⟨fun hc hp hl hv hd hu ht => ?fromInc, fun hc hv hp hu hd ht => ?toDec, fun hn hv hp hd hu ht => ?incInd,
    fun hn hp hl hv hd hu ht => ?indInc⟩
  case fromInc => rw [exec_moveFromIncInstr, seqInstr_ok (moveFromInc_of hc hp hl hv hd hu ht)]
  case toDec => rw [exec_moveToDecInstr, seqInstr_ok (moveToDec_of hc hv hp hu hd ht)]
  case incInd => rw [exec_moveIncIndInstr, seqInstr_ok (moveIncInd_of hn hv hp hd hu ht)]
  case indInc => rw [exec_moveIndIncInstr, seqInstr_ok (moveIndInc_of hn hp hl hv hd hu ht)]

/-- Settles O34. -/
theorem extendResult : Obligations.ExtendResult := by
  intro f s u v d hv hd
  refine ⟨fun hu => ?_, fun hu => ?_⟩
  · rw [exec_extendInstr, seqInstr_ok (moveExtend_of (x := .sign) hv hd hu)]; rfl
  · rw [exec_extendInstr, seqInstr_ok (moveExtend_of (x := .zero) hv hd hu)]; rfl

end Sys2Proof.Machine
end

section
/-!
PROOFS. Jumps and calls (46_jump_call.md).
-/

namespace Sys2Proof.Machine

/-- The target of a relative branch as a sum of integers. -/
theorem relTarget_eq (nx : Word) (rel : Rel) : relTarget nx rel = BitVec.ofInt 16 (nx.toNat + 2 * rel.toInt) := by
  have hrel : rel.signExtend 16 = BitVec.ofInt 16 rel.toInt := rfl
  rw [relTarget, hrel, BitVec.ofInt_add, BitVec.ofInt_mul]
  simp

/-- The target of a relative branch of an instruction of `len` bytes. -/
theorem relTarget_next (ip : Word) (rel : Rel) {len : Word} {k : Int} (hk : BitVec.ofInt 16 k = len) :
    relTarget (ip + len) rel = BitVec.ofInt 16 (ip.toNat + k + 2 * rel.toInt) := by
  have hip : BitVec.ofInt 16 (ip.toNat : Int) = ip := by simp
  have hnx : BitVec.ofInt 16 ((ip + len).toNat : Int) = ip + len := by simp [-BitVec.toNat_add]
  rw [relTarget_eq, BitVec.ofInt_add, BitVec.ofInt_add, BitVec.ofInt_add, hip, hnx, hk]

/-! The bodies, by the condition -/

section
variable {cc : Cond} {rel : Rel} {nx a x : Word} {n : RegNum} {s u : State}

theorem jumpRel_taken (h : condHolds cc s.flags = true) : jumpRel cc rel nx s = .ok (relTarget nx rel) s := by
  simp [jumpRel, h]

theorem jumpRel_not (h : condHolds cc s.flags = false) : jumpRel cc rel nx s = .ok nx s := by
  simp [jumpRel, h]

theorem jumpAbs_taken (h : condHolds cc s.flags = true) : jumpAbs cc a nx s = .ok a s := by
  simp [jumpAbs, h]

theorem jumpAbs_not (h : condHolds cc s.flags = false) : jumpAbs cc a nx s = .ok nx s := by
  simp [jumpAbs, h]

theorem jumpInd_taken (h : condHolds cc s.flags = true) (hx : gprVal .word s n = some x) :
    jumpInd cc n nx s = .ok x s := by
  simp [jumpInd, h, readGpr_of_val (w := .word) hx]

theorem jumpInd_not (h : condHolds cc s.flags = false) : jumpInd cc n nx s = .ok nx s := by
  simp [jumpInd, h]

theorem callAbs_taken (h : condHolds cc s.flags = true) (hu : pushed s nx nx = some u) :
    callAbs cc a nx s = .ok a u := by
  simp [callAbs, h, push_of_pushed hu]

theorem callAbs_not (h : condHolds cc s.flags = false) : callAbs cc a nx s = .ok nx s := by
  simp [callAbs, h]

theorem callInd_taken (h : condHolds cc s.flags = true) (hx : gprVal .word s n = some x)
    (hu : pushed s nx nx = some u) : callInd cc n nx s = .ok x u := by
  simp [callInd, h, readGpr_of_val (w := .word) hx, push_of_pushed hu]

theorem callInd_not (h : condHolds cc s.flags = false) : callInd cc n nx s = .ok nx s := by
  simp [callInd, h]

theorem callRel_of (hu : pushed s nx nx = some u) : callRel rel nx s = .ok (relTarget nx rel) u := by
  simp [callRel, push_of_pushed hu]

theorem callSeg_of {seg : SegNum} {t : State} (hu : pushed s nx (s.csp.setWidth 16) = some u)
    (ht : pushed u nx nx = some t) : callSeg seg a nx s = .ok a { t with csp := seg } := by
  simp [callSeg, zext16, push_of_pushed hu, push_of_pushed ht]

end

/-- Settles O35: each body by its condition. -/
theorem jumpResult : Obligations.JumpResult := by
  intro cc rel a n seg s
  refine ⟨fun h => ⟨?_, ?_, fun x hx => ?_⟩, fun h => ⟨?_, ?_, ?_⟩, rfl⟩
  · rw [← relTarget_next s.ip rel (len := 2#16) rfl]
    exact runInstr_ok (len := 2#16) (jumpRel_taken h)
  · exact runInstr_ok (len := 4#16) (jumpAbs_taken h)
  · exact runInstr_ok (len := 2#16) (jumpInd_taken h hx)
  · exact runInstr_ok (len := 2#16) (jumpRel_not h)
  · exact runInstr_ok (len := 4#16) (jumpAbs_not h)
  · exact runInstr_ok (len := 2#16) (jumpInd_not h)

/-- A displacement of minus an instruction's length names the instruction. -/
theorem relTarget_self (ip : Word) : relTarget (ip + 2#16) 0xFF#8 = ip ∧ relTarget (ip + 4#16) 0xFE#8 = ip := by
  simp [relTarget, BitVec.add_assoc]

/-- Settles O36. -/
theorem relativeTarget : Obligations.RelativeTarget := by
  intro nx rel
  have hlo := BitVec.le_toInt rel
  have hhi := BitVec.toInt_lt (x := rel)
  refine ⟨relTarget_eq nx rel, by simp at hlo; omega, by simp at hhi; omega, fun cc s h => ?_, fun qq q s x hx hb => ?_⟩
  · refine (runInstr_ok (len := 2#16) (jumpRel_taken h)).trans ?_
    rw [(relTarget_self s.ip).1]
  · refine (runInstr_ok (len := 4#16) (jumpBit_of (tested := true) hx)).trans ?_
    rw [if_pos hb, (relTarget_self s.ip).2]

theorem exec_jumpBit (tested : Bool) (qq : BitOff) (q : BitPos) (rel : Rel) (s : State) :
    exec (if tested then .jb qq q rel else .jnb qq q rel) s = runInstr 4#16 (jumpBit tested qq q rel) s := by
  cases tested <;> rfl

theorem exec_jumpBitModify (tested : Bool) (qq : BitOff) (q : BitPos) (rel : Rel) (s : State) :
    exec (if tested then .jbc qq q rel else .jnbs qq q rel) s = runInstr 4#16 (jumpBitModify tested qq q rel) s := by
  cases tested <;> rfl

/-- Settles O37. -/
theorem jumpBitResult : Obligations.JumpBitResult := by
  rintro tested qq q rel s a x target ha hx rfl
  have hval : bitWordVal s qq = some x := by simp [bitWordVal, ha, hx]
  rw [exec_jumpBit, exec_jumpBitModify, ← relTarget_next s.ip rel (len := 4#16) rfl]
  refine ⟨fun hb => ⟨?_, fun y u hy hu => ?_⟩, fun hb => ⟨?_, ?_⟩⟩
  · rw [runInstr_ok (jumpBit_of hval), if_pos hb]
  · rw [eq_setBit hy] at hu
    rw [runInstr_ok (jumpBitModify_taken ha hx hb hu)]
  · rw [runInstr_ok (jumpBit_of hval), if_neg (by simp [hb])]
  · rw [runInstr_ok (jumpBitModify_not hval hb), bitFlags, Bool.not_not]

/-- Settles O38. -/
theorem callNearResult : Obligations.CallNearResult := by
  intro cc a n rel s u
  refine ⟨fun h => ⟨fun hu => ?_, fun x hx hu => ?_⟩, fun h => ⟨?_, ?_⟩, fun hu => ?_⟩
  · exact runInstr_ok (len := 4#16) (callAbs_taken h hu)
  · exact runInstr_ok (len := 2#16) (callInd_taken h hx hu)
  · exact runInstr_ok (len := 4#16) (callAbs_not h)
  · exact runInstr_ok (len := 2#16) (callInd_not h)
  · rw [← relTarget_next s.ip rel (len := 2#16) rfl]
    exact runInstr_ok (len := 2#16) (callRel_of hu)

/-- Settles O39. -/
theorem callSegmentResult : Obligations.CallSegmentResult := by
  refine fun seg r a v s u t ht => ⟨fun hu => ?_, fun hv hu => ?_⟩
  · exact runInstr_ok (len := 4#16) (callSeg_of hu ht)
  · exact runInstr_ok (len := 4#16) (callPush_of hv hu ht)

/-! TRAP -/

/-- Four times a trap number, as a word. -/
theorem trapVector_eq (n : TrapNum) : 4#16 * zext16 n = BitVec.ofNat 16 (4 * n.toNat) := by
  rw [BitVec.ofNat_mul]
  exact congrArg _ (BitVec.eq_of_toNat_eq (by simp [zext16]))

section
variable {n : TrapNum} {nx : Word} {s s1 s2 s3 : State}

theorem softwareTrap_segmented (h : s.hazIn.syscon = false) (h1 : pushed s nx s.psw = some s1)
    (hd : s1.syscon.getLsbD 11 = false) (h2 : pushed s1 nx (s1.csp.setWidth 16) = some s2)
    (h3 : pushed s2 nx nx = some s3) :
    softwareTrap n nx s =
      .ok (BitVec.ofNat 16 (4 * n.toNat)) { s3 with csp := 0#8, frames := .software :: s3.frames } := by
  have hs : sgtdis s1 = false := hd
  rw [← trapVector_eq]
  simp [softwareTrap, h, push_of_pushed h1, hs, push_of_pushed h2, push_of_pushed h3]

theorem softwareTrap_flat (h : s.hazIn.syscon = false) (h1 : pushed s nx s.psw = some s1)
    (hd : s1.syscon.getLsbD 11 = true) (h3 : pushed s1 nx nx = some s3) :
    softwareTrap n nx s = .ok (BitVec.ofNat 16 (4 * n.toNat)) { s3 with frames := .software :: s3.frames } := by
  have hs : sgtdis s1 = true := hd
  rw [← trapVector_eq]
  simp [softwareTrap, h, push_of_pushed h1, hs, push_of_pushed h3]

end

/-- An instruction whose body is refused. -/
theorem runInstr_refused {len : Word} {body : Word → State → Res Word} {s : State} {e : Refusal}
    (h : body (s.ip + len) s = .refused e) : runInstr len body s = .refused e := by
  simp [runInstr, h]

/-- Settles O40: by SGTDIS after the push of the PSW. -/
theorem trapInstruction : Obligations.TrapInstruction := by
  refine fun n s => ⟨fun h => ?hazard, fun h s1 s2 s3 h1 h3 => ⟨fun hd h2 => ?segmented, fun hd h2 => ?flat⟩⟩
  case hazard => exact runInstr_refused (len := 2#16) (body := softwareTrap n) (if_pos h)
  case segmented => exact runInstr_ok (len := 2#16) (softwareTrap_segmented h h1 hd h2 h3)
  case flat => exact runInstr_ok (len := 2#16) (softwareTrap_flat h h1 hd (h2 ▸ h3))

end Sys2Proof.Machine
end


section
/-!
PROOFS. The stack and the returns (47_stack_return.md): PUSH, POP, SCXT, RET, RETS and RETP by the lemmas about their
bodies, RETI by SGTDIS after its first pop, and what a push leaves on a stack in plain memory.
-/

namespace Sys2Proof.Machine

/-- Settles O41. -/
theorem pushPopResult : Obligations.PushPopResult := by
  refine fun r s u v => ⟨fun hv hu => ?_, fun d t hu hd ht => ?_⟩
  · exact seqInstr_ok (len := 2#16) (pushReg_of hv hu)
  · exact seqInstr_ok (len := 2#16) (popReg_of hu hd ht)

/-- Settles O42. -/
theorem switchContextResult : Obligations.SwitchContextResult := by
  refine fun r a x v s u t d hv hu hd ht => ⟨?_, fun hx => ?_⟩
  · have himm : sourceVal .word s (.imm x) = some x := congrArg some (BitVec.setWidth_eq x)
    exact seqInstr_ok (len := 4#16) (switchContext_of hv himm hu hd ht)
  · exact seqInstr_ok (len := 4#16) (switchContext_of hv hx hu hd ht)

/-- The low byte of a word, as a truncation. -/
theorem loByte_eq_setWidth (v : Word) : loByte v = v.setWidth 8 :=
  BitVec.eq_of_getLsbD_eq fun k hk => by simp [loByte, hk]

theorem returnSeg_of {nx x v : Word} {s s1 s2 : State} (h1 : popped s = some (x, s1)) (h2 : popped s1 = some (v, s2)) :
    returnSeg nx s = .ok x { s2 with csp := v.setWidth 8 } := by
  simp [returnSeg, pop_of_popped h1, pop_of_popped h2, loByte_eq_setWidth]

/-- Settles O43. -/
theorem returnResult : Obligations.ReturnResult := by
  refine fun r x v s s1 s2 h1 => ⟨?_, fun h2 => ⟨?_, fun d t hd ht => ?_⟩⟩
  · exact runInstr_ok (len := 2#16) (body := returnNear) (pop_of_popped h1)
  · exact runInstr_ok (len := 2#16) (returnSeg_of h1 h2)
  · exact runInstr_ok (len := 2#16) (returnPop_of h1 h2 hd ht)

/-! RETI -/

theorem returnInterrupt_of {nx x p : Word} {s s1 s2 s3 : State} (h : s.hazIn.syscon = false)
    (h1 : popped s = some (x, s1))
    (h2 : s1.syscon.getLsbD 11 = false ∧ (∃ c u, popped s1 = some (c, u) ∧ s2 = { u with csp := c.setWidth 8 }) ∨
      s1.syscon.getLsbD 11 = true ∧ s2 = s1)
    (h3 : popped s2 = some (p, s3)) :
    returnInterrupt nx s = .ok x (leaveFrame { s3 with psw := p &&& pswMask s3.par.psw }) := by
  rcases h2 with ⟨hd, c, u, hc, rfl⟩ | ⟨hd, rfl⟩
  · have hs : sgtdis s1 = false := hd
    simp [returnInterrupt, h, pop_of_popped h1, hs, pop_of_popped hc, loByte_eq_setWidth, pop_of_popped h3]
  · have hs : sgtdis s2 = true := hd
    simp [returnInterrupt, h, pop_of_popped h1, hs, pop_of_popped h3]

/-- `leaveFrame` in one equation: each newest frame makes its own request pending again. -/
theorem leaveFrame_eq (s : State) : leaveFrame s =
    { s with
      frames := s.frames.tail
      pendNmi := s.pendNmi || s.frames.head? == some (.classA .nmi) && s.tfr.getLsbD s.par.traps.nmiBit
      pendStkof := s.pendStkof || s.frames.head? == some (.classA .stkof) && s.tfr.getLsbD s.par.traps.stkofBit
      pendStkuf := s.pendStkuf || s.frames.head? == some (.classA .stkuf) && s.tfr.getLsbD s.par.traps.stkufBit
      retrapB := s.retrapB ||
        s.frames.head? == some .classB && decide (s.tfr &&& classBFlags s.par.traps ≠ 0#16) } := by
  have key : ∀ fs : List Frame, leaveFrame { s with frames := fs } =
      { s with
        frames := fs.tail
        pendNmi := s.pendNmi || fs.head? == some (.classA .nmi) && s.tfr.getLsbD s.par.traps.nmiBit
        pendStkof := s.pendStkof || fs.head? == some (.classA .stkof) && s.tfr.getLsbD s.par.traps.stkofBit
        pendStkuf := s.pendStkuf || fs.head? == some (.classA .stkuf) && s.tfr.getLsbD s.par.traps.stkufBit
        retrapB := s.retrapB ||
          fs.head? == some .classB && decide (s.tfr &&& classBFlags s.par.traps ≠ 0#16) } := by
    intro fs
    cases fs with
    | nil => simp [leaveFrame]
    | cons f fs =>
      cases f with
      | classA k => cases k <;> simp [leaveFrame]
      | classB => simp [leaveFrame]; rfl
      | interrupt => simp [leaveFrame]
      | software => simp [leaveFrame]
  exact key s.frames

theorem bind_eq_trap {α β : Type} {x : Res α} {f : α → State → Res β} {k : ClassB} {u : State}
    (h : x.bind f = .trap k u) : x = .trap k u ∨ ∃ v t, x = .ok v t ∧ f v t = .trap k u := by
  cases x with
  | ok v t => exact .inr ⟨v, t, rfl, h⟩
  | trap j t => exact .inl (by cases h; rfl)
  | fault e => exact absurd h (by simp)
  | refused e => exact absurd h (by simp)

theorem pop_keeps_map_and_frames {s t : State} {v : Word} (hn : NoDevices s) (h : pop s = .ok v t) :
    NoDevices t ∧ t.frames = s.frames := by
  have hf := pop_frame hn
  rw [h] at hf
  exact ⟨hn.of_par hf.1.frame.outside.1, hf.2⟩

theorem pop_trap_frames {s t : State} {k : ClassB} (hn : NoDevices s) (h : pop s = .trap k t) : t.frames = s.frames :=
    by
  have hf := pop_frame hn
  rwa [h] at hf

/-- A RETI that traps has ended no service routine. -/
theorem returnInterrupt_trap_frames {nx : Word} {s u : State} {k : ClassB} (hn : NoDevices s)
    (h : returnInterrupt nx s = .trap k u) : u.frames = s.frames := by
  unfold returnInterrupt at h
  split at h
  · exact absurd h (by simp)
  rcases bind_eq_trap h with h1 | ⟨x, s1, h1, h⟩
  · exact pop_trap_frames hn h1
  obtain ⟨hn1, hf1⟩ := pop_keeps_map_and_frames hn h1
  have hcsp : ∀ v s2, (if sgtdis s1 then .ok () s1 else (pop s1).bind fun c s2 => .ok () { s2 with csp := loByte c }) =
      Res.ok v s2 → NoDevices s2 ∧ s2.frames = s.frames := by
    intro v s2 h2
    split at h2
    · cases h2; exact ⟨hn1, hf1⟩
    · obtain ⟨c, t, hp, h2⟩ := bind_eq_ok h2
      cases h2
      obtain ⟨hn2, hf2⟩ := pop_keeps_map_and_frames hn1 hp
      exact ⟨hn2, hf2.trans hf1⟩
  rcases bind_eq_trap h with h2 | ⟨v, s2, h2, h⟩
  · split at h2
    · exact absurd h2 (by simp)
    · rcases bind_eq_trap h2 with h2 | ⟨c, t, hp, h2⟩
      · exact (pop_trap_frames hn1 h2).trans hf1
      · exact absurd h2 (by simp)
  obtain ⟨hn2, hf2⟩ := hcsp v s2 h2
  rcases bind_eq_trap h with h3 | ⟨p, s3, h3, h⟩
  · exact (pop_trap_frames hn2 h3).trans hf2
  · exact absurd h (by simp)

/-- An instruction that answers ends its body, or enters one more service routine. -/
theorem runInstr_next {len : Word} {body : Word → State → Res Word} {s t : State} (h : runInstr len body s = .next t) :
    (∃ x u, body (s.ip + len) s = .ok x u ∧ t = { u with ip := x }) ∨
      ∃ k u, body (s.ip + len) s = .trap k u ∧ t.frames = .classB :: u.frames := by
  unfold runInstr at h
  split at h
  · next x u hb => cases h; exact .inl ⟨x, u, hb, rfl⟩
  · next k u hb =>
    cases hr : raiseB k (stackedIp k s.ip (s.ip + len)) u with
    | ok x y =>
      rw [hr] at h
      cases h
      exact .inr ⟨k, u, hb, frames_of_raiseB hr⟩
    | trap j y => rw [hr] at h; exact absurd h (by simp [outcomeOf])
    | fault e => rw [hr] at h; exact absurd h (by simp [outcomeOf])
    | refused e => rw [hr] at h; exact absurd h (by simp [outcomeOf])
  · exact absurd h (by simp)
  · exact absurd h (by simp)

/-- A RETI that ends its service routine has the frame of its body. -/
theorem reti_frame {s t : State} (hn : NoDevices s) (h : exec .reti s = .next t) (hf : t.frames = s.frames.tail) :
    FrameExcept (atReg s .psw :: atReg s .csp :: stackRegs s) s
      { t with
        pendNmi := s.pendNmi, pendStkof := s.pendStkof, pendStkuf := s.pendStkuf, retrapB := s.retrapB } := by
  rcases runInstr_next (len := 2#16) (body := returnInterrupt) h with ⟨x, u, hb, rfl⟩ | ⟨k, u, hb, ht⟩
  · exact (returnInterrupt_frame hn hb).trans (ip_frame _ _ x).frame
  · rw [returnInterrupt_trap_frames hn hb, hf] at ht
    have hl := congrArg List.length ht
    simp at hl

end Sys2Proof.Machine
end

section
/-!
PROOFS. A step at whose boundary the environment delivers nothing.
-/

namespace Sys2Proof.Machine

/-- Nothing delivered changes nothing. -/
theorem deliverAll_nil {s : State} (h : s.inputs = []) : deliverAll [] [] s = s := by
  have hs : { s with inputs := [] } = s := by rw [← h]
  unfold deliverAll
  split
  · exact hs
  · exact hs

/-- Nothing delivered, and the CPU not in power-down: the step is what the mode says. -/
theorem step_quiet {s : State} (h : s.inputs = []) (hr : s.run ≠ .powerdown) : step s = advance s := by
  simp [step, h, hr, stepWith, resetsNow, deliverAll_nil h]

theorem step_running {s : State} (h : s.inputs = []) (hr : s.run = .running) : step s = boundary s := by
  rw [step_quiet h (by simp [hr]), advance, hr]

/-- A class B routine that is due again is entered before anything else. -/
theorem boundary_retrap {s u : State} (hb : bankOk s.cp = true) (hr : s.retrapB = true)
    (hf : s.tfr &&& classAFlags s.par.traps = 0#16)
    (hu : entered { s with extCount := 0, extEsfr := false, extOvr := .none, retrapB := false } .classB
      s.par.traps.classB 15#4 s.ip = some u) : boundary s = .next u := by
  simp [boundary, hb, hr, enterB, hf, enter_of_entered hu, outcomeOf]

/-- Settles O44. -/
theorem returnFromInterrupt : Obligations.ReturnFromInterrupt := by
  refine ⟨fun s h => ?hazard, fun x p s s1 s2 s3 h h1 h2 h3 => ?completes, leaveFrame_eq,
    fun s t hn h hf => reti_frame hn h hf, fun s u hi hr hb hd hf hu => ?again⟩
  case hazard => exact runInstr_refused (len := 2#16) (body := returnInterrupt) (if_pos h)
  case completes => exact runInstr_ok (len := 2#16) (returnInterrupt_of h h1 h2 h3)
  case again => rw [step_running hi hr, boundary_retrap hb hd hf hu]

end Sys2Proof.Machine
end


section
/-!
PROOFS. The stack in plain memory (20_memory.md R74, 60_exceptions.md R358): what a push leaves there, the pop after
it, and the checks of the stack limits.
-/

namespace Sys2Proof.Machine

/-! Words of plain memory -/

/-- A word read from plain memory. -/
theorem peek_ram {s : State} {a : Addr} (hp : place s a = .ram) (ho : isOdd a = false) (hb : beyondBits s a = false) :
    peek .word s a = some (wordAt s a) := by
  simp [peek, hp, ho, hb]

/-- A word stored in plain memory. -/
theorem pokeWord_ram {s t : State} {a : Addr} {v : Word} (hp : place s a = .ram) (h : pokeWord s a v = some t) :
    isOdd a = false ∧ beyondBits s a = false ∧ t = setWord s a v := by
  unfold pokeWord at h
  split at h
  · exact absurd h (by simp)
  · next hb =>
    simp only [Bool.or_eq_true, not_or, Bool.not_eq_true] at hb
    rw [hp] at h
    exact ⟨hb.1, hb.2, (Option.some.inj h).symm⟩

/-- The word at `b` is not touched by a word store at `a`. -/
theorem wordAt_setWord_other (s : State) {a b : Addr} (v : Word) (h : b ≠ a) (h1 : b ≠ a + 1) (h2 : b + 1 ≠ a) :
    wordAt (setWord s a v) b = wordAt s b := by
  have h3 : b + 1 ≠ a + 1 := fun e => h (by simpa using e)
  rw [wordAt, wordAt, byteAt_setWord, byteAt_setWord, if_neg h3, if_neg h2, if_neg h1, if_neg h]

theorem wordAt_congr {s t : State} (h : s.mem = t.mem) (a : Addr) : wordAt s a = wordAt t a := by
  simp [wordAt, byteAt_congr s t h]

/-! The checks of the limits -/

/-- The check after a push writes STKOF's bit of TFR and its request at most. -/
theorem lowLimit_eq {s t : State} (h : lowLimit s = some t) :
    ∃ f p, t = { s with tfr := f, pendStkof := p } ∧
      f &&& ~~~(bitAt s.par.traps.stkofBit) = s.tfr &&& ~~~(bitAt s.par.traps.stkofBit) := by
  unfold lowLimit at h
  split at h
  · split at h
    · cases h
      refine ⟨_, _, rfl, ?_⟩
      rw [BitVec.and_or_distrib_right]
      simp
    · exact absurd h (by simp)
  · cases h
    exact ⟨_, _, rfl, rfl⟩

/-- The state after a push of `v` on plain memory, with TFR `f` and STKOF's request `p` as the check left them. -/
def stackPushed (s : State) (v f : Word) (p : Bool) : State :=
  { setWord s (near (s.sp - 2#16)) v with sp := s.sp - 2#16, tfr := f, pendStkof := p }

theorem wordAt_stackPushed {s : State} {x : Word} (hx : s.sp = x) (v f : Word) (p : Bool) :
    wordAt (stackPushed s v f p) (near (x - 2#16)) = v := by
  subst hx
  exact (wordAt_congr rfl _).trans (wordAt_setWord s _ v)

theorem wordAt_stackPushed_other {s : State} {x : Word} (hx : s.sp = x) (v f : Word) (p : Bool) {b : Addr}
    (h : b ≠ near (x - 2#16) ∧ b ≠ near (x - 2#16) + 1 ∧ b + 1 ≠ near (x - 2#16)) :
    wordAt (stackPushed s v f p) b = wordAt s b := by
  subst hx
  exact (wordAt_congr rfl _).trans (wordAt_setWord_other s v h.1 h.2.1 h.2.2)

theorem byteAt_stackPushed_other (s : State) (v f : Word) (p : Bool) {b : Addr} (h : b ≠ near (s.sp - 2#16))
    (h1 : b ≠ near (s.sp - 2#16) + 1) : byteAt (stackPushed s v f p) b = byteAt s b :=
  (byteAt_congr _ (setWord s (near (s.sp - 2#16)) v) rfl b).trans (by rw [byteAt_setWord, if_neg h1, if_neg h])

/-- An entry's push on plain memory: the word is in its slot, SP is 2 lower, and STKOF's bit and request may be set. -/
theorem entryPushed_ram {s t : State} {v : Word} (hp : place s (near (s.sp - 2#16)) = .ram)
    (h : entryPushed s v = some t) :
    isOdd (near (s.sp - 2#16)) = false ∧ beyondBits s (near (s.sp - 2#16)) = false ∧
      ∃ f p, t = stackPushed s v f p ∧
        f &&& ~~~(bitAt s.par.traps.stkofBit) = s.tfr &&& ~~~(bitAt s.par.traps.stkofBit) := by
  obtain ⟨u, hu, hl⟩ := Option.bind_eq_some_iff.mp h
  obtain ⟨ho, hb, rfl⟩ := pokeWord_ram (s := { s with sp := s.sp - 2#16 }) hp hu
  obtain ⟨f, p, rfl, hf⟩ := lowLimit_eq hl
  exact ⟨ho, hb, f, p, rfl, hf⟩

/-- An instruction's push is an entry's push, where no hazard and no prefetch window forbids it. -/
theorem entryPushed_of_pushed {s t : State} {nx v : Word} (h : pushed s nx v = some t) :
    s.hazIn.sp = false ∧ entryPushed s v = some t := by
  unfold pushed at h
  split at h
  · exact absurd h (by simp)
  · next hz =>
    obtain ⟨u, hu, hl⟩ := Option.bind_eq_some_iff.mp h
    simp only [poke, pokeBy] at hu
    split at hu
    · exact absurd hu (by simp)
    · exact ⟨by simpa using hz, by simp [entryPushed, hu, hl]⟩

/-! Push and pop -/

theorem popped_of_peek {s : State} {v : Word} (hz : s.hazIn.sp = false) (h : peek .word s (near s.sp) = some v)
    (hl : ¬ s.stkun < s.sp + 2#16) : popped s = some (v, { s with sp := s.sp + 2#16 }) := by
  simp [popped, hz, h, highLimit, hl]

/-- The pop after a push on plain memory answers the value, with SP as it was before. -/
theorem popped_after_pushed {s u : State} {nx v : Word} (hp : place s (near (s.sp - 2#16)) = .ram)
    (hl : ¬ s.stkun < s.sp) (h : pushed s nx v = some u) :
    u.sp = s.sp - 2#16 ∧ popped u = some (v, { u with sp := s.sp }) ∧
    ∀ a, a ≠ near (s.sp - 2#16) → a ≠ near (s.sp - 2#16) + 1 → byteAt u a = byteAt s a := by
  obtain ⟨hz, he⟩ := entryPushed_of_pushed h
  obtain ⟨ho, hb, f, p, rfl, -⟩ := entryPushed_ram hp he
  have hsp : (stackPushed s v f p).sp + 2#16 = s.sp := BitVec.sub_add_cancel _ _
  have hread : peek .word (stackPushed s v f p) (near (s.sp - 2#16)) = some v :=
    (peek_ram (s := stackPushed s v f p) hp ho hb).trans (congrArg some (wordAt_stackPushed rfl v f p))
  refine ⟨rfl, ?_, fun a h0 h1 => byteAt_stackPushed_other s v f p h0 h1⟩
  rw [popped_of_peek (s := stackPushed s v f p) hz hread (by rw [hsp]; exact hl), hsp]

theorem push_of_poke {s t : State} {nx v : Word} (hz : s.hazIn.sp = false)
    (h : poke .word { s with sp := s.sp - 2#16 } nx (near (s.sp - 2#16)) v = some t) :
    push nx v s = checkOverflow t := by
  simp [push, hz, memWrite_of_poke (w := .word) h]

theorem pop_of_peek {s : State} {v : Word} (hz : s.hazIn.sp = false) (h : peek .word s (near s.sp) = some v) :
    pop s = (checkUnderflow { s with sp := s.sp + 2#16 }).bind fun _ s => .ok v s := by
  simp [pop, hz, memRead_of_peek (w := .word) h]

/-- Settles O45: the pop after a push, then the two checks by the value of SP and STACK_LIMITS. -/
theorem pushThenPop : Obligations.PushThenPop := by
  refine ⟨fun s u nx v hp hl h => popped_after_pushed hp hl h, fun s t nx v hz h => ?push, fun s v hz h => ?pop,
    by decide, by decide, fun s nx v hz => ⟨if_pos hz, if_pos hz⟩⟩
  case push =>
    rw [push_of_poke hz h]
    exact ⟨fun hl => if_neg hl, fun hl hon => by simp [checkOverflow, hl, hon],
      fun hl hoff => by simp [checkOverflow, hl, hoff]⟩
  case pop =>
    rw [pop_of_peek hz h]
    exact ⟨fun hl => by simp [checkUnderflow, hl], fun hl hon => by simp [checkUnderflow, hl, hon],
      fun hl hoff => by simp [checkUnderflow, hl, hoff]⟩

end Sys2Proof.Machine
end

section
/-!
PROOFS. The entry of a class B trap on a stack in plain memory (60_exceptions.md R362): its three pushes, each in a
slot of its own, and the level in the PSW.
-/

namespace Sys2Proof.Machine

/-! ILVL -/

/-- The bits of ILVL's mask. -/
theorem ilvlMask_getLsbD (l : PswLayout) {k : Nat} (hk : k < 16) :
    (ilvlMask l).getLsbD k = decide (l.ilvl.val ≤ k ∧ k < l.ilvl.val + 4) := by
  have hnib : ∀ j < 16, (0x000F#16 : Word).getLsbD j = decide (j < 4) := by decide
  rw [ilvlMask, BitVec.getLsbD_shiftLeft, hnib _ (by omega)]
  by_cases h : k < l.ilvl.val
  · simp [hk, h, Nat.not_le.mpr h]
  · have hle := Nat.not_lt.mp h
    simp only [hk, h, hle, decide_true, decide_false, Bool.not_false, Bool.true_and, true_and, decide_eq_decide]
    omega

/-- A PSW with a new level: the level in its four bits, the others as they were. -/
theorem withIlvl_getLsbD (l : PswLayout) (psw : Word) (v : BitVec 4) {k : Nat} (hk : k < 16) :
    (withIlvl l psw v).getLsbD k =
      if l.ilvl.val ≤ k ∧ k < l.ilvl.val + 4 then v.getLsbD (k - l.ilvl.val) else psw.getLsbD k := by
  have hv : (v.setWidth 16 : Word).getLsbD (k - l.ilvl.val) = v.getLsbD (k - l.ilvl.val) := by
    rw [BitVec.getLsbD_setWidth]
    simp [show k - l.ilvl.val < 16 by omega]
  rw [withIlvl, BitVec.getLsbD_or, BitVec.getLsbD_and, BitVec.getLsbD_not, ilvlMask_getLsbD l hk,
    BitVec.getLsbD_shiftLeft, hv]
  by_cases h : l.ilvl.val ≤ k
  · by_cases h4 : k < l.ilvl.val + 4
    · simp [h, h4, hk, Nat.not_lt.mpr h]
    · have h0 : v.getLsbD (k - l.ilvl.val) = false := BitVec.getLsbD_of_ge _ _ (by omega)
      simp [h, h4, hk, h0]
  · simp [h, hk, Nat.lt_of_not_le h]

theorem pswIlvl_withIlvl (l : PswLayout) (psw : Word) (v : BitVec 4) : pswIlvl l (withIlvl l psw v) = v :=
  BitVec.eq_of_getLsbD_eq fun k hk => by
    have hi := l.ilvl.isLt
    rw [pswIlvl, BitVec.getLsbD_extractLsb', withIlvl_getLsbD l psw v (by omega)]
    simp [hk]

theorem withIlvl_rest (l : PswLayout) (psw : Word) (v : BitVec 4) :
    withIlvl l psw v &&& ~~~(ilvlMask l) = psw &&& ~~~(ilvlMask l) :=
  BitVec.eq_of_getLsbD_eq fun k hk => by
    rw [BitVec.getLsbD_and, BitVec.getLsbD_and, BitVec.getLsbD_not, ilvlMask_getLsbD l hk, withIlvl_getLsbD l psw v hk]
    by_cases h : l.ilvl.val ≤ k ∧ k < l.ilvl.val + 4 <;> simp [h]

theorem withIlvl_default (psw : Word) (v : BitVec 4) :
    withIlvl PswLayout.default psw v = v ++ psw.extractLsb' 0 12 :=
  BitVec.eq_of_getLsbD_eq fun k hk => by
    have hi : PswLayout.default.ilvl.val = 12 := rfl
    rw [withIlvl_getLsbD _ psw v hk, hi, BitVec.getLsbD_append, BitVec.getLsbD_extractLsb']
    by_cases h : k < 12
    · simp [h, Nat.not_le.mpr h]
    · simp [h, Nat.not_lt.mp h, hk]

/-! The three pushes -/

/-- The slots of two pushes in a row, and of the first and the third of three, do not overlap. -/
theorem slots_apart (x : Word) :
    (near x ≠ near (x - 2#16) ∧ near x ≠ near (x - 2#16) + 1 ∧ near x + 1 ≠ near (x - 2#16)) ∧
    near x ≠ near (x - 2#16 - 2#16) ∧ near x ≠ near (x - 2#16 - 2#16) + 1 ∧ near x + 1 ≠ near (x - 2#16 - 2#16) := by
  simp only [near]
  bv_omega

/-- The state after three pushes on plain memory. -/
def threePushed (s : State) (v1 v2 v3 f1 f2 f3 : Word) (p1 p2 p3 : Bool) : State :=
  stackPushed (stackPushed (stackPushed s v1 f1 p1) v2 f2 p2) v3 f3 p3

/-- Three pushes in a row on plain memory leave each word in its slot. -/
theorem wordAt_threePushed (s : State) (v1 v2 v3 f1 f2 f3 : Word) (p1 p2 p3 : Bool) :
    wordAt (threePushed s v1 v2 v3 f1 f2 f3 p1 p2 p3) (near (s.sp - 2#16)) = v1 ∧
    wordAt (threePushed s v1 v2 v3 f1 f2 f3 p1 p2 p3) (near (s.sp - 2#16 - 2#16)) = v2 ∧
    wordAt (threePushed s v1 v2 v3 f1 f2 f3 p1 p2 p3) (near (s.sp - 2#16 - 2#16 - 2#16)) = v3 := by
  rw [threePushed]
  obtain ⟨h12, h13⟩ := slots_apart (s.sp - 2#16)
  obtain ⟨h23, -⟩ := slots_apart (s.sp - 2#16 - 2#16)
  have e1 : (stackPushed s v1 f1 p1).sp = s.sp - 2#16 := rfl
  have e2 : (stackPushed (stackPushed s v1 f1 p1) v2 f2 p2).sp = s.sp - 2#16 - 2#16 := rfl
  refine ⟨?_, ?_, wordAt_stackPushed e2 v3 f3 p3⟩
  · rw [wordAt_stackPushed_other e2 v3 f3 p3 h13, wordAt_stackPushed_other e1 v2 f2 p2 h12, wordAt_stackPushed rfl]
  · rw [wordAt_stackPushed_other e2 v3 f3 p3 h23, wordAt_stackPushed e1]

/-- Memory after an arrival is what the pushes left. -/
theorem peek_arrive {t : State} {a : Addr} {v : Word} (f : Frame) (number : TrapNum) (level : BitVec 4)
    (hp : place t a = .ram) (ho : isOdd a = false) (hb : beyondBits t a = false) (hv : wordAt t a = v) :
    peek .word (arrive f number level t) a = some v :=
  (peek_ram (s := arrive f number level t) hp ho hb).trans (congrArg some ((wordAt_congr rfl a).trans hv))

/-- An entry in segmented mode on plain memory: three pushes, each in its slot, then the arrival at the vector. -/
theorem entered_ram {s u : State} {f : Frame} {number : TrapNum} {level : BitVec 4} {ret : Word}
    (hd : s.syscon.getLsbD 11 = false) (h : entered s f number level ret = some u)
    (h2 : place s (near (s.sp - 2#16)) = .ram) (h4 : place s (near (s.sp - 2#16 - 2#16)) = .ram)
    (h6 : place s (near (s.sp - 2#16 - 2#16 - 2#16)) = .ram) :
    peek .word u (near (s.sp - 2#16)) = some s.psw ∧
    peek .word u (near (s.sp - 2#16 - 2#16)) = some (s.csp.setWidth 16) ∧
    peek .word u (near (s.sp - 2#16 - 2#16 - 2#16)) = some ret ∧
    ∃ f1 f2 f3 p1 p2 p3, f3 &&& ~~~(bitAt s.par.traps.stkofBit) = s.tfr &&& ~~~(bitAt s.par.traps.stkofBit) ∧
      u = arrive f number level (threePushed s s.psw (s.csp.setWidth 16) ret f1 f2 f3 p1 p2 p3) := by
  obtain ⟨s1, hs1, h⟩ := Option.bind_eq_some_iff.mp h
  obtain ⟨ho1, hb1, f1, p1, rfl, hf1⟩ := entryPushed_ram h2 hs1
  obtain ⟨s2, hs2, h⟩ := Option.bind_eq_some_iff.mp h
  have hd1 : sgtdis (stackPushed s s.psw f1 p1) = false := hd
  rw [hd1, if_neg Bool.false_ne_true] at hs2
  obtain ⟨ho2, hb2, f2, p2, rfl, hf2⟩ := entryPushed_ram (s := stackPushed s s.psw f1 p1) h4 hs2
  obtain ⟨s3, hs3, h⟩ := Option.bind_eq_some_iff.mp h
  obtain ⟨ho3, hb3, f3, p3, rfl, hf3⟩ :=
    entryPushed_ram (s := stackPushed (stackPushed s s.psw f1 p1) (s.csp.setWidth 16) f2 p2) h6 hs3
  have hu : u = arrive f number level (threePushed s s.psw (s.csp.setWidth 16) ret f1 f2 f3 p1 p2 p3) :=
    (Option.some.inj h).symm
  obtain ⟨hw1, hw2, hw3⟩ := wordAt_threePushed s s.psw (s.csp.setWidth 16) ret f1 f2 f3 p1 p2 p3
  refine ⟨?_, ?_, ?_, f1, f2, f3, p1, p2, p3, hf3.trans (hf2.trans hf1), hu⟩
  · rw [hu]; exact peek_arrive f number level h2 ho1 hb1 hw1
  · rw [hu]; exact peek_arrive f number level h4 ho2 hb2 hw2
  · rw [hu]; exact peek_arrive f number level h6 ho3 hb3 hw3

/-- The vector of a trap number does not wrap. -/
theorem trapVector_toNat (n : TrapNum) : (4#16 * zext16 n).toNat = 4 * n.toNat := by
  have := n.isLt
  simp [zext16]
  omega

/-- The state from which a class B trap is entered: its flag set, the sequence ended (48_system_control.md R338). -/
def classBReady (s : State) (k : ClassB) : State :=
  { s with
    tfr := s.tfr ||| classBFlag s.par.traps k, extCount := 0, extEsfr := false, extOvr := .none, retrapB := false }

theorem entered_of_enteredB {s u : State} {k : ClassB} {ret : Word} (h : enteredB s k ret = some u) :
    entered (classBReady s k) .classB s.par.traps.classB 15#4 ret = some u := by
  unfold enteredB at h
  split at h
  · exact h
  · exact absurd h (by simp)

/-- Settles O50: the entry of `enteredB` with the slots of its three pushes. -/
theorem trapFrameLayout : Obligations.TrapFrameLayout := by
  refine ⟨fun s u k ret hd h h2 h4 h6 => ?_, by decide, by decide, by decide, by decide, by decide⟩
  have e4 : s.sp - 4#16 = s.sp - 2#16 - 2#16 := by bv_omega
  have e6 : s.sp - 6#16 = s.sp - 2#16 - 2#16 - 2#16 := by bv_omega
  rw [e4] at h4 ⊢
  rw [e6] at h6 ⊢
  obtain ⟨hw1, hw2, hw3, f1, f2, f3, p1, p2, p3, hf, rfl⟩ :=
    entered_ram (s := classBReady s k) hd (entered_of_enteredB h) h2 h4 h6
  have hcsp : sgtdis (threePushed (classBReady s k) s.psw (s.csp.setWidth 16) ret f1 f2 f3 p1 p2 p3) = false := hd
  refine ⟨rfl, hw1, hw2, hw3, trapVector_toNat _, if_neg (ne_true_of_eq_false hcsp), ?ilvl,
    withIlvl_rest s.par.psw s.psw 15#4, fun hl => ?psw, hf, rfl, rfl, rfl, rfl, rfl, rfl, rfl, rfl, rfl, rfl, rfl⟩
  case ilvl => exact pswIlvl_withIlvl s.par.psw s.psw 15#4
  case psw =>
    have hpsw : withIlvl s.par.psw s.psw 15#4 = 15#4 ++ s.psw.extractLsb' 0 12 := by rw [hl, withIlvl_default]
    exact hpsw

end Sys2Proof.Machine
end


section
/-!
PROOFS. The system instructions, the reset and the sequences (48_system_control.md, 70_reset_and_hazards.md).
-/

namespace Sys2Proof.Machine

/-- An instruction that does not transfer control and whose body is refused. -/
theorem seqInstr_refused {len : Word} {body : Word → State → Res Unit} {s : State} {e : Refusal}
    (h : body (s.ip + len) s = .refused e) : seqInstr len body s = .refused e := by
  simp [seqInstr, runInstr, h]

/-- Settles O46. -/
theorem systemEffects : Obligations.SystemEffects := by
  refine fun s => ⟨rfl, rfl, ?diswdt, fun h => ?einitFirst, fun h => ?einitAgain, fun h => ?pwrdnLow,
    fun h => ?pwrdnHigh, fun h => ?idle, fun h => ?idleInside⟩
  case diswdt =>
    refine (seqInstr_ok (len := 4#16) (body := disableWatchdog) rfl).trans ?_
    cases s.wdtLocked <;> simp
  case einitFirst =>
    refine (seqInstr_ok (len := 4#16) (body := endInit) rfl).trans ?_
    simp [h]
  case einitAgain =>
    refine (seqInstr_ok (len := 4#16) (body := endInit) rfl).trans ?_
    simp [h]
  case pwrdnLow =>
    refine (seqInstr_ok (len := 4#16) (body := enterPowerDown) rfl).trans ?_
    simp [h]
  case pwrdnHigh =>
    refine (seqInstr_ok (len := 4#16) (body := enterPowerDown) rfl).trans ?_
    simp [h]
  case idle => exact seqInstr_ok (len := 4#16) (body := enterIdle) (if_pos h)
  case idleInside => exact seqInstr_refused (len := 4#16) (body := enterIdle) (if_neg h)

/-! Reset -/

/-- What a CPU register reads after a reset. -/
theorem readCpuReg_resetCpu (r : CpuReg) (s : State) : readCpuReg r (resetCpu s) = resetReg s.par r := by
  cases r <;> rfl

/-- A reset clears every interrupt control register. -/
theorem resetCpu_irqs {s : State} : ∀ q ∈ (resetCpu s).irqs, q.ic = 0#8 := by
  intro q hq
  obtain ⟨p, -, rfl⟩ := List.mem_map.mp hq
  rfl

/-- Settles O47. -/
theorem resetTransition : Obligations.ResetTransition := by
  refine fun s => ⟨⟨resetCpu s, rfl, fun r => readCpuReg_resetCpu r s, rfl, rfl, rfl, rfl, rfl, rfl, rfl, rfl, rfl, rfl,
    rfl, rfl, rfl, resetCpu_irqs⟩, fun evs rest hi he => ?_⟩
  have hnow : resetsNow s evs = true := by
    rcases he with h | ⟨h, hw, hr⟩
    · simp [resetsNow, h]
    · simp [resetsNow, h, hw, hr]
  refine ⟨resetCpu { s with inputs := rest }, by simp [step, hi, stepWith, hnow],
    fun r => readCpuReg_resetCpu r { s with inputs := rest }, rfl, rfl, rfl, rfl, rfl, rfl, rfl, rfl, rfl, rfl, rfl,
    rfl, rfl, resetCpu_irqs, rfl⟩

/-! Sequences -/

/-- Whether an EXT* leaves a mode in force unset (48_system_control.md R338). -/
theorem leavesMode_iff {esfr : Bool} {ovr : Override} {s : State} : leavesMode esfr ovr s = true ↔
    s.extCount ≠ 0 ∧ (s.extEsfr = true ∧ esfr = false ∨ s.extOvr ≠ .none ∧ ovr = .none) := by
  simp [leavesMode]

theorem beginExtend_ok {esfr : Bool} {ovr : Override} {k : SeqLen} {s : State} (h : ¬ leavesMode esfr ovr s = true) :
    beginExtend esfr ovr k s = .ok () { s with extCount := k.toNat + 1, extEsfr := esfr, extOvr := ovr } :=
  if_neg h

theorem beginExtend_refused {esfr : Bool} {ovr : Override} {k : SeqLen} {s : State} (h : leavesMode esfr ovr s = true) :
    beginExtend esfr ovr k s = .refused .nestedExtend :=
  if_pos h

/-- Settles O48: by the nesting rule. -/
theorem sequenceBegins : Obligations.SequenceBegins := by
  refine fun f k s => ⟨rfl, fun h => ?_, fun hc h => ?_⟩
  · have hm : ¬ leavesMode f.esfr f.ovr s = true := by
      rw [leavesMode_iff]
      rintro ⟨hc, ⟨he, he'⟩ | ⟨ho, ho'⟩⟩
      · exact absurd ((h.resolve_left hc).1 he) (by simp [he'])
      · exact (h.resolve_left hc).2 ho ho'
    rw [exec_extInstr, seqInstr_ok (beginExtend_ok hm)]
  · rw [exec_extInstr, seqInstr_refused (beginExtend_refused (leavesMode_iff.mpr ⟨hc, h⟩))]

/-- The override that a register gives, by truncation. -/
theorem regOverride_eq (seg : Bool) (x : Word) :
    regOverride seg x = if seg then .seg (x.setWidth 8) else .page (x.setWidth 10) := by
  have h8 : x.extractLsb' 0 8 = x.setWidth 8 := BitVec.eq_of_getLsbD_eq fun k hk => by simp [hk]
  have h10 : x.extractLsb' 0 10 = x.setWidth 10 := BitVec.eq_of_getLsbD_eq fun k hk => by simp [hk]
  rw [regOverride, h8, h10]

/-- Settles O49: an override by a register is never none, so the ESFR mode alone decides. -/
theorem sequenceByRegister : Obligations.SequenceByRegister := by
  intro seg esfr m k s x hx
  have hne : regOverride seg x ≠ .none := by cases seg <;> simp [regOverride]
  have hread : readGpr .word m s = .ok x s := readGpr_of_val (w := .word) hx
  refine ⟨fun h => ?_, fun hc he he' => ?_⟩
  · have hm : ¬ leavesMode esfr (regOverride seg x) s = true := by
      rw [leavesMode_iff]
      rintro ⟨hc, ⟨he, he'⟩ | ⟨-, ho⟩⟩
      · simp [hc, he, he'] at h
      · exact hne ho
    rw [exec_extRegInstr, seqInstr_ok (by rw [hread, bind_ok, beginExtend_ok hm]), regOverride_eq]
  · rw [exec_extRegInstr, seqInstr_refused]
    rw [hread, bind_ok, beginExtend_refused (leavesMode_iff.mpr ⟨hc, .inl ⟨he, he'⟩⟩)]

/-- Settles O7. -/
theorem sequenceCounts : Obligations.SequenceCounts := by
  refine fun i u => ⟨rfl, fun h => by simp [afterInstr, h], fun h hc => by simp [afterInstr, h, countSequence, hc],
    fun h hc => ⟨{ u with extCount := u.extCount - 1 }, ?_, Nat.sub_add_cancel (by omega), rfl, rfl, rfl, rfl⟩⟩
  have hn : u.extCount - 1 ≠ 0 := by omega
  simp [afterInstr, h, countSequence, hn]

end Sys2Proof.Machine
end

section
/-!
PROOFS. Class B traps (60_exceptions.md section 2): the undefined, MAC and protected opcodes, and a word operand at an
odd address in every form that can name one.
-/

namespace Sys2Proof.Machine

theorem exec_undefined {i : Instr} (hi : i ∈ undefinedInstrs) (s : State) :
    exec i s = runInstr 2#16 undefinedOpcode s := by
  simp only [undefinedInstrs, List.mem_cons, List.not_mem_nil, or_false] at hi
  rcases hi with rfl | rfl | rfl | rfl | rfl | rfl | rfl | rfl | rfl | rfl | rfl | rfl | rfl | rfl <;> rfl

theorem exec_mac {i : Instr} (hi : i ∈ macInstrs) (s : State) : exec i s = runInstr 4#16 macOpcode s := by
  simp only [macInstrs, List.mem_cons, List.not_mem_nil, or_false] at hi
  rcases hi with rfl | rfl | rfl | rfl | rfl | rfl <;> rfl

theorem exec_protFault {i : Instr} {b1 b2 b3 : Byte} (hi : i ∈ protFaultInstrs b1 b2 b3) (s : State) :
    exec i s = runInstr 4#16 protectionFault s := by
  simp only [protFaultInstrs, List.mem_cons, List.not_mem_nil, or_false] at hi
  rcases hi with rfl | rfl | rfl | rfl | rfl | rfl <;> rfl

/-- Settles O51. -/
theorem undefinedOpcodeTraps : Obligations.UndefinedOpcodeTraps := by
  refine ⟨fun _ _ _ => rfl, fun _ _ _ => rfl, fun s u => ⟨fun h => ⟨fun i hi => ?_, fun hm i hi => ?_⟩,
    fun hm i hi => ?_⟩⟩
  · rw [exec_undefined hi, runInstr_trap (k := .undopc) rfl h]
  · rw [exec_mac hi, runInstr_trap (k := .undopc) (t := s) (by simp [macOpcode, hm]) h]
  · rw [exec_mac hi, runInstr_refused (e := .macPresent) (by simp [macOpcode, hm])]

/-- The test for the pattern of a protected opcode. -/
theorem pattern_false {b0 b1 b2 b3 : Byte} (h : ¬ (b1 = ~~~b0 ∧ b2 = b0 ∧ b3 = b0)) :
    ¬ (b1 == ~~~b0 && b2 == b0 && b3 == b0) = true := by
  simpa [and_assoc] using h

/-- A protected opcode without its pattern decodes to a protection fault. -/
theorem decode_protected {b0 b1 b2 b3 : Byte} (h0 : b0 ∈ [0x87#8, 0x97#8, 0xA7#8, 0xA5#8, 0xB5#8, 0xB7#8])
    (h : ¬ (b1 = ~~~b0 ∧ b2 = b0 ∧ b3 = b0)) : ∃ i ∈ protFaultInstrs b1 b2 b3, decode b0 b1 b2 b3 = .instr i := by
  simp only [List.mem_cons, List.not_mem_nil, or_false] at h0
  rcases h0 with rfl | rfl | rfl | rfl | rfl | rfl
  · exact ⟨.protFault87 b1 b2 b3, by simp [protFaultInstrs], if_neg (pattern_false h)⟩
  · exact ⟨.protFault97 b1 b2 b3, by simp [protFaultInstrs], if_neg (pattern_false h)⟩
  · exact ⟨.protFaultA7 b1 b2 b3, by simp [protFaultInstrs], if_neg (pattern_false h)⟩
  · exact ⟨.protFaultA5 b1 b2 b3, by simp [protFaultInstrs], if_neg (pattern_false h)⟩
  · exact ⟨.protFaultB5 b1 b2 b3, by simp [protFaultInstrs], if_neg (pattern_false h)⟩
  · exact ⟨.protFaultB7 b1 b2 b3, by simp [protFaultInstrs], if_neg (pattern_false h)⟩

/-- Settles O52. -/
theorem protectionFaultTraps : Obligations.ProtectionFaultTraps := by
  intro b0 b1 b2 b3 s u h0 h hu
  obtain ⟨i, hi, hd⟩ := decode_protected h0 h
  exact ⟨i, hd, hi, by rw [exec_protFault hi, runInstr_trap (k := .prtflt) rfl hu]⟩

/-! A word operand at an odd address -/

/-- A pointer operand: the pointer, and the address it gives. -/
theorem operandLoc_ind {w : Width} {s : State} {k : RegNum} {p : Addr} (h : operandLoc w s (.ind k) = some p) :
    ∃ q, gprVal .word s k = some q ∧ longLoc s q = some p :=
  Option.bind_eq_some_iff.mp h

section
variable {s : State} {l : Loc} {p : Addr} {nx : Word}

theorem memRead_odd (ho : isOdd p = true) (s : State) : memRead .word p s = .trap .illopa s := if_pos ho

theorem memWrite_odd (ho : isOdd p = true) (nx v : Word) (s : State) : memWrite .word nx p v s = .trap .illopa s :=
  if_pos ho

theorem storeLoc_odd (ho : isOdd p = true) (l : Loc) (nx v : Word) (s : State) :
    storeLoc .word l nx p v s = .trap .illopa s := if_pos ho

theorem readLoc_odd (hp : operandLoc .word s l = some p) (ho : isOdd p = true) :
    readLoc .word l s = .trap .illopa s := by
  rw [readLoc, locAddr_of_loc hp, bind_ok, memRead_odd ho]

theorem readSrc_odd (hp : operandLoc .word s l = some p) (ho : isOdd p = true) :
    readSrc .word (.loc l) s = .trap .illopa s := readLoc_odd hp ho

theorem readPostInc_odd {k : RegNum} (hp : operandLoc .word s (.ind k) = some p) (ho : isOdd p = true) :
    readPostInc .word k s = .trap .illopa s := by
  obtain ⟨q, hq, hl⟩ := operandLoc_ind hp
  rw [readPostInc, readGpr_of_val (w := .word) hq, bind_ok, dataAddr_of_loc hl, bind_ok, memRead_odd ho, bind_trap]

/-! The bodies: with an odd source, then with an odd destination -/

theorem alu_odd_source (op : AluOp) (dst : Loc) (hp : operandLoc .word s l = some p) (ho : isOdd p = true) :
    alu op .word dst (.loc l) nx s = .trap .illopa s := by
  rw [alu, readSrc_odd hp ho, bind_trap]

theorem compare_odd_source (dst : Loc) (hp : operandLoc .word s l = some p) (ho : isOdd p = true) :
    compare .word dst (.loc l) nx s = .trap .illopa s := by
  rw [compare, readSrc_odd hp ho, bind_trap]

theorem aluInc_odd_source (op : AluOp) {n k : RegNum} (hn : n ≠ k) (hp : operandLoc .word s (.ind k) = some p)
    (ho : isOdd p = true) : aluInc op .word n k nx s = .trap .illopa s := by
  simp [aluInc, clashes, hn, readPostInc_odd hp ho]

theorem compareInc_odd_source {n k : RegNum} (hn : n ≠ k) (hp : operandLoc .word s (.ind k) = some p)
    (ho : isOdd p = true) : compareInc .word n k nx s = .trap .illopa s := by
  simp [compareInc, clashes, hn, readPostInc_odd hp ho]

theorem compareStep_odd_source (step : Word) (n : RegNum) (hp : operandLoc .word s l = some p) (ho : isOdd p = true) :
    compareStep step n (.loc l) nx s = .trap .illopa s := by
  rw [compareStep, readSrc_odd hp ho, bind_trap]

theorem move_odd_source (dst : Loc) (hp : operandLoc .word s l = some p) (ho : isOdd p = true) :
    move .word dst (.loc l) nx s = .trap .illopa s := by
  rw [move, readSrc_odd hp ho, bind_trap]

theorem moveFromInc_odd_source {n m : RegNum} (hn : n ≠ m) (hp : operandLoc .word s (.ind m) = some p)
    (ho : isOdd p = true) : moveFromInc .word n m nx s = .trap .illopa s := by
  simp [moveFromInc, clashes, hn, readPostInc_odd hp ho]

theorem moveIncInd_odd_source {n m : RegNum} (hn : n ≠ m) (hp : operandLoc .word s (.ind m) = some p)
    (ho : isOdd p = true) : moveIncInd .word n m nx s = .trap .illopa s := by
  simp [moveIncInd, hn, readLoc_odd hp ho]

theorem moveIndInc_odd_source {n m : RegNum} (hn : n ≠ m) (hp : operandLoc .word s (.ind m) = some p)
    (ho : isOdd p = true) : moveIndInc .word n m nx s = .trap .illopa s := by
  simp [moveIndInc, hn, readPostInc_odd hp ho]

theorem switchContext_odd_source {r : ShortReg} {v : Word} (hv : sourceVal .word s (.loc (.short r)) = some v)
    (hp : operandLoc .word s l = some p) (ho : isOdd p = true) :
    switchContext r (.loc l) nx s = .trap .illopa s := by
  rw [switchContext, readLoc_of_val (w := .word) hv, bind_ok, readSrc_odd hp ho, bind_trap]

theorem alu_odd_dest (op : AluOp) {src : Src} {v : Word} (hv : sourceVal .word s src = some v)
    (hp : operandLoc .word s l = some p) (ho : isOdd p = true) : alu op .word l src nx s = .trap .illopa s := by
  rw [alu, readSrc_of_val hv, bind_ok, locAddr_of_loc hp, bind_ok, memRead_odd ho, bind_trap]

theorem move_odd_dest {src : Src} {v : Word} (hv : sourceVal .word s src = some v)
    (hp : operandLoc .word s l = some p) (ho : isOdd p = true) : move .word l src nx s = .trap .illopa s := by
  rw [move, readSrc_of_val hv, bind_ok, locAddr_of_loc hp, bind_ok, storeLoc_odd ho, bind_trap]

theorem moveExtend_odd_dest (x : Extend) {src : Loc} {v : Byte} (hv : sourceVal .byte s (.loc src) = some v)
    (hp : operandLoc .word s l = some p) (ho : isOdd p = true) : moveExtend x l src nx s = .trap .illopa s := by
  rw [moveExtend, readLoc_of_val (w := .byte) hv, bind_ok, locAddr_of_loc hp, bind_ok, memWrite_odd ho, bind_trap]

theorem moveIncInd_odd_dest {n m : RegNum} {v : Word} (hn : n ≠ m) (hv : sourceVal .word s (.loc (.ind m)) = some v)
    (hp : operandLoc .word s (.ind n) = some p) (ho : isOdd p = true) :
    moveIncInd .word n m nx s = .trap .illopa s := by
  obtain ⟨q, hq, hl⟩ := operandLoc_ind hp
  simp [moveIncInd, hn, readLoc_of_val (w := .word) hv, readGpr_of_val (w := .word) hq, dataAddr_of_loc hl,
    memWrite_odd ho]

theorem moveIndInc_odd_dest {n m : RegNum} {v : Word} (hn : n ≠ m) (hv : sourceVal .word s (.loc (.ind m)) = some v)
    (hp : operandLoc .word s (.ind n) = some p) (ho : isOdd p = true) :
    moveIndInc .word n m nx s = .trap .illopa s := by
  obtain ⟨d, hd, hv⟩ := Option.bind_eq_some_iff.mp hv
  obtain ⟨q, hq, hl⟩ := operandLoc_ind hd
  simp [moveIndInc, hn, readPostInc_of (w := .word) hq hl hv, locAddr_of_loc hp, memWrite_odd ho]

theorem moveToDec_odd_dest {m n : RegNum} {t : State} {v x : Word} {d : Addr} (hn : m ≠ n)
    (hv : gprVal .word s n = some v) (hx : gprVal .word s m = some x) (ht : pokePtr s nx m (x - 2#16) = some t)
    (hd : longLoc t (x - 2#16) = some d) (ho : isOdd d = true) :
    moveToDec .word m n nx s = .trap .illopa t := by
  simp [moveToDec, clashes, hn.symm, readGpr_of_val (w := .word) hv, readGpr_of_val (w := .word) hx, widthStep,
    writeGpr_of_pokePtr ht, dataAddr_of_loc hd, memWrite_odd ho]

end

/-- Settles O53: in each form the body traps at the odd access, with what it has written before. -/
theorem oddOperandTraps : Obligations.OddOperandTraps := by
  refine fun s u l p hp ho => ⟨fun v nx => ⟨memRead_odd ho s, memWrite_odd ho nx v s⟩,
    fun op f hu => ⟨fun hf => ?_, ?_⟩, ?_, ?_, ?_, ?_, ?_, ?_, ?_⟩
  · refine ⟨?_, fun i hi => ?_⟩
    · rw [exec_aluInstr, hf, seqInstr_trap (k := .illopa) (alu_odd_source op f.dst hp ho) hu]
    · rw [exec_cmpInstr hi, hf, seqInstr_trap (k := .illopa) (compare_odd_source f.dst hp ho) hu]
  · rintro v rfl hv
    rw [exec_aluInstr, seqInstr_trap (k := .illopa) (alu_odd_dest op hv hp ho) hu]
  · rintro op n k rfl hn hu
    rw [exec_aluIncInstr, exec_cmpIncInstr]
    exact ⟨seqInstr_trap (k := .illopa) (aluInc_odd_source op hn hp ho) hu,
      seqInstr_trap (k := .illopa) (compareInc_odd_source hn hp ho) hu⟩
  · intro k n f hf hu
    rw [exec_stepInstr, hf, seqInstr_trap (k := .illopa) (compareStep_odd_source k.amount n hp ho) hu]
  · refine fun f hu => ⟨fun hf => ?_, ?_⟩
    · rw [exec_moveInstr, hf, seqInstr_trap (k := .illopa) (move_odd_source f.dst hp ho) hu]
    · rintro v rfl hv
      rw [exec_moveInstr, seqInstr_trap (k := .illopa) (move_odd_dest hv hp ho) hu]
  · intro n m hn hu
    rw [exec_moveFromIncInstr, exec_moveIncIndInstr, exec_moveIndIncInstr]
    constructor
    · rintro rfl
      exact ⟨seqInstr_trap (k := .illopa) (moveFromInc_odd_source hn hp ho) hu,
        seqInstr_trap (k := .illopa) (moveIncInd_odd_source hn hp ho) hu,
        seqInstr_trap (k := .illopa) (moveIndInc_odd_source hn hp ho) hu⟩
    · rintro v rfl hv
      exact ⟨seqInstr_trap (k := .illopa) (moveIncInd_odd_dest hn hv hp ho) hu,
        seqInstr_trap (k := .illopa) (moveIndInc_odd_dest hn hv hp ho) hu⟩
  · intro m n t v x d hn hv hx ht hd hod hu
    exact (exec_moveToDecInstr .word m n s).trans
      (seqInstr_trap (k := .illopa) (moveToDec_odd_dest hn hv hx ht hd hod) hu)
  · rintro x f v rfl hv hu
    rw [exec_extendInstr, seqInstr_trap (k := .illopa) (moveExtend_odd_dest x hv hp ho) hu]
  · rintro r a v rfl hv hu
    exact seqInstr_trap (len := 4#16) (k := .illopa) (switchContext_odd_source hv hp ho) hu

end Sys2Proof.Machine
end


section
/-!
PROOFS. The instruction boundary (60_exceptions.md R366): the instruction whose bytes stand at CSP:IP, an odd IP, and
the class A traps.
-/

namespace Sys2Proof.Machine

/-! The next instruction -/

/-- The fetch of an instruction whose bytes stand at CSP:IP. -/
theorem fetch_of_codeAt {s : State} {i : Instr} (h : CodeAt s i) : fetch s = .ok (.instr i) s := by
  obtain ⟨b0, b1, h0, h1, ⟨hl, hd⟩ | ⟨hl, hip, b2, b3, h2, h3, hd⟩⟩ := h
  · simp [fetch, memRead_of_peek (w := .byte) h0, hl, memRead_of_peek (w := .byte) h1, hd]
  · simp [fetch, memRead_of_peek (w := .byte) h0, hl, hip, memRead_of_peek (w := .byte) h1,
      memRead_of_peek (w := .byte) h2, memRead_of_peek (w := .byte) h3, hd]

theorem runNext_of_codeAt {s : State} {i : Instr} (ho : isOdd s.ip = false) (h : CodeAt s i) :
    runNext s = runDecoded i s := by
  simp [runNext, ho, fetch_of_codeAt h]

theorem runNext_of_odd {s u : State} (ho : isOdd s.ip = true) (hu : enteredB s .illina s.ip = some u) :
    runNext s = .next u := by
  simp [runNext, ho, raiseB_of_entered hu, outcomeOf]

/-- The state in which the next instruction is fetched: at an open boundary arbitration has kept its record. -/
def atFetch (s : State) : State := if s.extCount = 0 then afterArbitration s else s

theorem codeAt_atFetch {s : State} {i : Instr} (h : CodeAt s i) : CodeAt (atFetch s) i := by
  unfold atFetch
  split
  · exact h
  · exact h

theorem atFetch_ip (s : State) : (atFetch s).ip = s.ip := by
  unfold atFetch
  split <;> rfl

theorem runDecoded_atFetch (i : Instr) (s : State) : runDecoded i (atFetch s) =
    afterInstr i (decide (s.extCount ≠ 0))
      (exec i (shiftHazards
        { (if s.extCount = 0 then afterArbitration s else s) with arbHist := ageHistory s.arbHist })) := by
  unfold atFetch
  split <;> rfl

/-- A boundary at which nothing is entered and the run does not end. -/
theorem boundary_runs {s : State} (hb : bankOk s.cp = true) (hr : s.retrapB = false)
    (h : s.extCount ≠ 0 ∨
      (highestClassA s = none ∧ arbitrate s = none ∧ s.par.endAddr ≠ some (codeAddr s 0#16))) :
    boundary s = runNext (atFetch s) := by
  by_cases hc : s.extCount = 0
  · obtain ⟨hA, harb, hend⟩ := h.resolve_left (not_not_intro hc)
    simp [boundary, hb, hr, hc, hA, harb, hend, atFetch]
  · simp [boundary, hb, hr, hc, atFetch]

theorem bankOk_iff {cp : Word} : bankOk cp = true ↔ isOdd cp = false ∧ cp.toNat + 31 ≤ 0xFFFF := by
  simp [bankOk]

/-- Settles O6. -/
theorem stepRunsDecodedInstruction : Obligations.StepRunsDecodedInstruction := by
  refine fun i s hi hr => ⟨fun hbad => ?bad, fun hcp hbank hretrap hip hopen hcode => ?runs⟩
  case bad =>
    have hb : ¬ bankOk s.cp = true := by
      rw [bankOk_iff]
      rintro ⟨he, hle⟩
      rcases hbad with h | h
      · exact absurd h (by simp [he])
      · omega
    simp [step_running hi hr, boundary, hb]
  case runs =>
    have hip' : isOdd (atFetch s).ip = false := by rw [atFetch_ip]; exact hip
    rw [step_running hi hr, boundary_runs (bankOk_iff.mpr ⟨hcp, hbank⟩) hretrap hopen,
      runNext_of_codeAt hip' (codeAt_atFetch hcode), runDecoded_atFetch]

/-- Settles O54. -/
theorem oddTargetTraps : Obligations.OddTargetTraps := by
  intro s u hi hr hb hretrap ho hopen hu
  rw [step_running hi hr, boundary_runs hb hretrap hopen]
  exact runNext_of_odd (s := atFetch s) (by rw [atFetch_ip]; exact ho) (by rw [atFetch_ip]; exact hu)

/-! Waking, and the class A traps -/

/-- A CPU that is not in power-down runs where something wakes it. -/
theorem advance_awake {s : State} (hr : s.run ≠ .powerdown) (hw : wakes s = true) :
    advance s = boundary { s with run := .running } := by
  unfold advance
  cases h : s.run with
  | running =>
    have hs : { s with run := .running } = s := by rw [← h]
    rw [hs]
  | idle => simp [hw]
  | powerdown => exact absurd h hr

/-- At an open boundary the highest class A trap is entered. -/
theorem boundary_classA {s u : State} {k : ClassA} (hb : bankOk s.cp = true) (hr : s.retrapB = false)
    (hc : s.extCount = 0) (hk : highestClassA s = some k) (hu : enterA k s = .ok () u) : boundary s = .next u := by
  simp [boundary, hb, hr, hc, hk, hu, outcomeOf]

theorem advance_classA {s u : State} {k : ClassA} (hrun : s.run ≠ .powerdown) (hb : bankOk s.cp = true)
    (hr : s.retrapB = false) (hc : s.extCount = 0) (hk : highestClassA s = some k)
    (hu : enterA k { s with run := .running } = .ok () u) : advance s = .next u := by
  rw [advance_awake hrun (by simp [wakes, hk]), boundary_classA (s := { s with run := .running }) hb hr hc hk hu]

/-- The highest class A trap, by the requests. -/
theorem highestClassA_nmi {s : State} (h : s.pendNmi = true) : highestClassA s = some .nmi := by
  simp [highestClassA, h]

theorem highestClassA_stkof {s : State} (hn : s.pendNmi = false) (h : s.pendStkof = true) :
    highestClassA s = some .stkof := by
  simp [highestClassA, hn, h]

theorem highestClassA_stkuf {s : State} (hn : s.pendNmi = false) (ho : s.pendStkof = false) (h : s.pendStkuf = true) :
    highestClassA s = some .stkuf := by
  simp [highestClassA, hn, ho, h]

theorem highestClassA_none {s : State} (hn : s.pendNmi = false) (ho : s.pendStkof = false) (hu : s.pendStkuf = false) :
    highestClassA s = none := by
  simp [highestClassA, hn, ho, hu]

/-- One event that is no reset and waits for no boundary, delivered to a CPU that is not in power-down. -/
theorem step_one_event {s : State} {e : EnvEvent} (hi : s.inputs = [[e]]) (hr : s.run ≠ .powerdown)
    (hreset : e ≠ .reset ∧ e ≠ .watchdogReset) (hw : waitsForOpen e = false) :
    step s = advance (deliver { s with inputs := [] } e) := by
  have hnow : resetsNow s [e] = false := by simp [resetsNow, hreset.1.symm, hreset.2.symm]
  have hall : deliverAll [e] [] s = deliver { s with inputs := [] } e := by
    unfold deliverAll
    split
    · rfl
    · simp [hw, postpone]
  simp [step, hi, stepWith, hnow, hr, hall]

/-- Settles O55. -/
theorem classAEntry : Obligations.ClassAEntry := by
  refine ⟨⟨rfl, rfl, rfl, by decide⟩, fun s u hrun hb hr hc => ⟨fun hi hu => ?edge, fun hi h hu => ?nmi,
    fun hi hn h hu => ?stkof, fun hi hn ho h hu => ?stkuf⟩⟩
  case edge =>
    rw [step_one_event hi hrun (by simp) rfl]
    exact advance_classA (s := deliver { s with inputs := [] } .nmi) hrun hb hr hc (highestClassA_nmi rfl)
      (enter_of_entered hu)
  case nmi =>
    rw [step_quiet hi hrun, advance_classA hrun hb hr hc (highestClassA_nmi h) (enter_of_entered hu)]
  case stkof =>
    rw [step_quiet hi hrun, advance_classA hrun hb hr hc (highestClassA_stkof hn h) (enter_of_entered hu)]
  case stkuf =>
    rw [step_quiet hi hrun, advance_classA hrun hb hr hc (highestClassA_stkuf hn ho h) (enter_of_entered hu)]

/-- Settles O57. -/
theorem idleAndPowerDown : Obligations.IdleAndPowerDown := by
  refine fun s => ⟨fun hr hi hn ho hu hq => ?waits, fun hr hi hq => ?wakes, fun hr hi => ?down,
    fun evs rest hr hi he => ?dropped⟩
  case waits =>
    have hirq : s.irqs.any irqCandidate = false := by
      rw [List.any_eq_false]
      intro q hmem
      rw [irqCandidate, Bool.not_eq_true, Bool.and_eq_false_iff]
      exact hq q hmem
    have hw : wakes s = false := by simp [wakes, highestClassA_none hn ho hu, hirq]
    simp [step_quiet hi (by simp [hr]), advance, hr, hw]
  case wakes =>
    obtain ⟨q, hmem, h7, h6⟩ := hq
    have hirq : s.irqs.any irqCandidate = true := List.any_eq_true.mpr ⟨q, hmem, Bool.and_eq_true_iff.mpr ⟨h7, h6⟩⟩
    have hw : wakes s = true := by simp [wakes, hirq]
    rw [step_quiet hi (by simp [hr]), advance_awake (by simp [hr]) hw,
      step_running (s := { s with run := .running }) hi rfl]
  case down => simp [step, hi, hr]
  case dropped =>
    have hnow : resetsNow s evs = false := by simp [resetsNow, he, hr]
    simp [step, hi, stepWith, hnow, hr]

end Sys2Proof.Machine
end


section
/-!
PROOFS. Interrupts (60_exceptions.md R365, R366): a request and a store at an interrupt control register, and
arbitration among candidates with different priorities.
-/

namespace Sys2Proof.Machine

/-! The interrupt control registers -/

section
variable {s : State} {k : Nat} {q : IrqSource}

theorem modify_ic {irqs : List IrqSource} (h : irqs[k]? = some q) (f : Byte → Byte) :
    irqs.modify k (fun q => { q with ic := f q.ic }) = irqs.set k { q with ic := f q.ic } := by
  rw [List.modify_eq_set_getElem?, h]
  rfl

theorem putIrq_eq (h : s.irqs[k]? = some q) (v : Byte) :
    putIrq s k v = { s with irqs := s.irqs.set k { q with ic := v } } := by
  rw [putIrq, modify_ic h fun _ => v]

theorem irqWord_eq (h : s.irqs[k]? = some q) : irqWord s k = q.ic.setWidth 16 := by
  simp [irqWord, h, zext16]

/-- A request sets xxIR of its source. -/
theorem deliver_irq (h : s.irqs[k]? = some q) :
    deliver s (.irq k) = { s with irqs := s.irqs.set k { q with ic := q.ic ||| 0x80#8 } } := by
  rw [deliver, modify_ic h (· ||| 0x80#8)]

/-- Both bytes of a control register's word hold that register. -/
theorem place_succ_irq {a : Addr} (ho : isOdd a = false) (hp : place s a = .irq k) : place s (a + 1) = .irq k := by
  unfold place at hp ⊢
  rw [evenAddr_succ_of_even ho]
  rw [evenAddr_of_even ho] at hp
  revert hp
  cases cpuRegAt s.par.sfr a with
  | some r => simp
  | none =>
    cases irqIndexAt s.irqs a with
    | some j => simp
    | none => cases regionKind s.par.map a.toNat <;> simp; split <;> simp

theorem loByte_setWidth (b : Byte) : loByte (b.setWidth 16) = b := by
  rw [loByte_eq_setWidth]
  simp

theorem hiByte_setWidth (b : Byte) : hiByte (b.setWidth 16) = 0#8 :=
  BitVec.eq_of_getLsbD_eq fun j hj => by simp [hiByte, hj]

/-- What a load of a control register gives, at both widths and at each half. -/
theorem memRead_irq (hq : s.irqs[k]? = some q) (hp : place s q.icAddr = .irq k) (ho : isOdd q.icAddr = false)
    (hb : beyondBits s q.icAddr = false) (hb' : beyondBits s (q.icAddr + 1) = false) :
    memRead .word q.icAddr s = .ok (q.ic.setWidth 16) s ∧ memRead .byte q.icAddr s = .ok q.ic s ∧
      memRead .byte (q.icAddr + 1) s = .ok 0#8 s := by
  have hw := irqWord_eq hq
  have hlo : selectByte q.icAddr (irqWord s k) = q.ic := by
    rw [hw, selectByte, ho, if_neg Bool.false_ne_true, loByte_setWidth]
  have hhi : selectByte (q.icAddr + 1) (irqWord s k) = 0#8 := by
    rw [hw, selectByte, isOdd_succ_of_even ho, if_pos rfl, hiByte_setWidth]
  refine ⟨by simp [memRead, ho, loadWord, hb, hp, hw], ?_, ?_⟩
  · simp only [memRead, loadByte, hb, hp, hlo, Bool.false_eq_true, if_false]
  · simp only [memRead, loadByte, hb', place_succ_irq ho hp, hhi, Bool.false_eq_true, if_false]

theorem memWrite_word_irq {nx : Word} (hq : s.irqs[k]? = some q) (hp : place s q.icAddr = .irq k)
    (ho : isOdd q.icAddr = false) (hb : beyondBits s q.icAddr = false) (hw : inWindow s nx q.icAddr = false)
    (hw' : inWindow s nx (q.icAddr + 1) = false) (v : Word) :
    memWrite .word nx q.icAddr v s = .ok () { s with irqs := s.irqs.set k { q with ic := v.setWidth 8 } } := by
  simp only [memWrite, storeBy, ho, hw, hw', storeWord, hb, hp, putIrq_eq hq, loByte_eq_setWidth, Bool.or_self,
    Bool.false_eq_true, if_false]

theorem storeBy_byte_irq (route : ByteRoute) {nx : Word} (hq : s.irqs[k]? = some q) (hp : place s q.icAddr = .irq k)
    (ho : isOdd q.icAddr = false) (hb : beyondBits s q.icAddr = false) (hw : inWindow s nx q.icAddr = false)
    (b : Byte) :
    storeBy route .byte nx q.icAddr b s = .ok () { s with irqs := s.irqs.set k { q with ic := b } } := by
  simp [storeBy, ho, hw, storeByte, hb, hp, putIrq_eq hq]

theorem storeBy_high_byte_irq (route : ByteRoute) {nx : Word} (hp : place s q.icAddr = .irq k)
    (ho : isOdd q.icAddr = false) (hb : beyondBits s (q.icAddr + 1) = false)
    (hw : inWindow s nx (q.icAddr + 1) = false) (b : Byte) :
    storeBy route .byte nx (q.icAddr + 1) b s = .ok () s := by
  simp only [storeBy, hw, storeByte, hb, place_succ_irq ho hp, isOdd_succ_of_even ho, Bool.false_eq_true, if_false,
    if_true]

/-- A byte stored at a control register, as an operand of any form names it. -/
theorem storeLoc_byte_irq (l : Loc) {nx : Word} (hq : s.irqs[k]? = some q) (hp : place s q.icAddr = .irq k)
    (ho : isOdd q.icAddr = false) (hb : beyondBits s q.icAddr = false) (hw : inWindow s nx q.icAddr = false)
    (hw' : inWindow s nx (q.icAddr + 1) = false) (b : Byte) :
    storeLoc .byte l nx q.icAddr b s = .ok () { s with irqs := s.irqs.set k { q with ic := b } } := by
  unfold storeLoc
  split
  · rw [memWrite_word_irq hq hp ho hb hw hw', ← loByte_eq_setWidth]
    exact congrArg (fun c => Res.ok () { s with irqs := s.irqs.set k { q with ic := c } }) (loByte_setWidth b)
  · exact storeBy_byte_irq _ hq hp ho hb hw b

theorem storeLoc_high_byte_irq {l : Loc} {nx : Word} (hl : storesWord .byte l = false) (hp : place s q.icAddr = .irq k)
    (ho : isOdd q.icAddr = false) (hb : beyondBits s (q.icAddr + 1) = false)
    (hw : inWindow s nx (q.icAddr + 1) = false) (b : Byte) : storeLoc .byte l nx (q.icAddr + 1) b s = .ok () s := by
  rw [storeLoc, hl]
  exact storeBy_high_byte_irq _ hp ho hb hw b

/-- A request delivered at a boundary: the step is the one that finds it already made. -/
theorem step_irq (hq : s.irqs[k]? = some q) (hi : s.inputs = [[.irq k]]) (hr : s.run ≠ .powerdown) :
    step s = step { s with inputs := [], irqs := s.irqs.set k { q with ic := q.ic ||| 0x80#8 } } := by
  rw [step_one_event hi hr (by simp) rfl, deliver_irq (s := { s with inputs := [] }) hq,
    step_quiet (s := { s with inputs := [], irqs := s.irqs.set k { q with ic := q.ic ||| 0x80#8 } }) rfl hr]

end

/-! Arbitration -/

theorem irqRank_toNat (q : IrqSource) : (irqRank q).toNat = q.ic.toNat % 64 := by
  simp [irqRank]

theorem irqLevel_toNat (q : IrqSource) : (irqLevel q).toNat = q.ic.toNat / 4 % 16 := by
  simp [irqLevel, Nat.shiftRight_eq_div_pow]

/-- No two enabled sources with one priority. -/
theorem ranksClash_eq_false {irqs : List IrqSource} (h : irqs.Pairwise fun q r =>
    irqEnabled q = true → irqEnabled r = true → irqRank r ≠ irqRank q) : ranksClash irqs = false := by
  induction irqs with
  | nil => rfl
  | cons q rest ih =>
    obtain ⟨hq, hrest⟩ := List.pairwise_cons.mp h
    have hany : (irqEnabled q && rest.any fun r => irqEnabled r && irqRank r == irqRank q) = false := by
      rw [Bool.and_eq_false_imp]
      intro he
      rw [List.any_eq_false]
      intro r hr hc
      obtain ⟨her, hrank⟩ := Bool.and_eq_true_iff.mp hc
      exact hq r hr he her (beq_iff_eq.mp hrank)
    rw [ranksClash, hany, ih hrest]
    rfl

/-- The candidate that arbitration finds is one of the sources. -/
theorem bestCandidate_mem {irqs : List IrqSource} {n j : Nat} {r : IrqSource} (h : bestCandidate irqs n = some (j, r)) :
    r ∈ irqs ∧ irqCandidate r = true := by
  induction irqs generalizing n with
  | nil => exact absurd h (by simp [bestCandidate])
  | cons q rest ih =>
    rw [bestCandidate] at h
    split at h
    · split at h
      · next hq => cases h; exact ⟨List.mem_cons_self, hq⟩
      · exact absurd h (by simp)
    · next i t hrest =>
      split at h
      · next hq => cases h; exact ⟨List.mem_cons_self, (Bool.and_eq_true_iff.mp hq).1⟩
      · cases h
        obtain ⟨hmem, hc⟩ := ih hrest
        exact ⟨List.mem_cons_of_mem q hmem, hc⟩

/-- The candidate above all others is the one found. -/
theorem bestCandidate_eq {irqs : List IrqSource} {n k : Nat} {q : IrqSource} (hq : irqs[k]? = some q)
    (hc : irqCandidate q = true)
    (hmax : ∀ j r, irqs[j]? = some r → j ≠ k → irqCandidate r = true → irqRank r < irqRank q) :
    bestCandidate irqs n = some (n + k, q) := by
  induction irqs generalizing n k with
  | nil => exact absurd hq (by simp)
  | cons x rest ih =>
    cases k with
    | zero =>
      cases hq
      rw [bestCandidate]
      cases hrest : bestCandidate rest (n + 1) with
      | none => simp [hc]
      | some p =>
        obtain ⟨j, r⟩ := p
        obtain ⟨hmem, hr⟩ := bestCandidate_mem hrest
        obtain ⟨i, hi⟩ := List.mem_iff_getElem?.mp hmem
        have hlt := hmax (i + 1) r hi (by omega) hr
        simp [hc, hlt]
    | succ k =>
      have hrest : bestCandidate rest (n + 1) = some (n + 1 + k, q) :=
        ih hq fun j r hr hj => hmax (j + 1) r hr (by omega)
      have hx : ¬ (irqCandidate x && decide (irqRank q < irqRank x)) = true := by
        intro h
        obtain ⟨hxc, hlt⟩ := Bool.and_eq_true_iff.mp h
        exact absurd (hmax 0 x rfl (by omega) hxc) (BitVec.not_lt.mpr (BitVec.le_of_lt (of_decide_eq_true hlt)))
      rw [bestCandidate, hrest]
      refine (if_neg hx).trans ?_
      rw [Nat.add_assoc, Nat.add_comm 1 k]

/-- The best candidate, where no two priorities are equal and the PSW admits it, is entered. -/
theorem arbitrate_enters {s u : State} {k : Nat} {q : IrqSource} (hclash : ranksClash s.irqs = false)
    (hbest : bestCandidate s.irqs 0 = some (k, q)) (hpec : q.pec = false) (hh : s.arbHist = [])
    (hacc : accepts s.par.psw s.psw q = true)
    (hu : entered (putIrq s k (q.ic &&& 0x7F#8)) .interrupt q.trapNo (irqLevel q) s.ip = some u) :
    arbitrate s = some (.next u) := by
  have hpsw : arbitrationPsw s = s.psw := if_pos hh
  have hdraws : (if s.arbHist = [] then s.draws else s.draws + 1) = s.draws := if_pos hh
  simp [arbitrate, hclash, hbest, hpec, hdraws, hpsw, hacc, enterIrq, enter_of_entered hu, outcomeOf]

/-- Settles O56. -/
theorem interruptEntry : Obligations.InterruptEntry := by
  refine ⟨fun w => ⟨rfl, ?ilvl⟩, fun s k q hq => ⟨fun hp ho hb hb' => ?access, deliver_irq hq, step_irq hq⟩, ?entry⟩
  case ilvl =>
    have hw := w.isLt
    simp [pswIlvl, PswLayout.default, Nat.shiftRight_eq_div_pow]
    omega
  case access =>
    obtain ⟨h1, h2, h3⟩ := memRead_irq hq hp ho hb hb'
    exact ⟨h1, h2, h3, fun nx hw hw' => ⟨memWrite_word_irq hq hp ho hb hw hw',
      fun b l => ⟨storeLoc_byte_irq l hq hp ho hb hw hw' b, fun hl => storeLoc_high_byte_irq hl hp ho hb' hw' b⟩⟩⟩
  case entry =>
    intro s u k q hi hr hb hretrap hc hh hn ho hu hq h7 h6 hpec hmax hdiff hien hlevel hent
    have hcand : ∀ r : IrqSource, irqCandidate r = true → r.ic.getLsbD 7 = true ∧ r.ic.getLsbD 6 = true :=
      fun r h => Bool.and_eq_true_iff.mp h
    have hclash : ranksClash s.irqs = false := ranksClash_eq_false <| by
      refine List.pairwise_iff_getElem.mpr fun i j hi hj hij he he' hrank => ?_
      refine hdiff i j _ _ (List.getElem?_eq_getElem hi) (List.getElem?_eq_getElem hj) (by omega) he he' ?_
      rw [← irqRank_toNat, ← irqRank_toNat, hrank]
    have hbest : bestCandidate s.irqs 0 = some (k, q) := by
      rw [bestCandidate_eq hq (Bool.and_eq_true_iff.mpr ⟨h7, h6⟩), Nat.zero_add]
      intro j r hr hj hrc
      rw [BitVec.lt_def, irqRank_toNat, irqRank_toNat]
      exact hmax j r hr hj (hcand r hrc).1 (hcand r hrc).2
    have hacc : accepts s.par.psw s.psw q = true := by
      refine Bool.and_eq_true_iff.mpr ⟨hien, decide_eq_true ?_⟩
      rw [BitVec.lt_def, irqLevel_toNat]
      exact hlevel
    rw [step_running hi hr]
    simp [boundary, hb, hretrap, hc, highestClassA_none hn ho hu, arbitrate_enters hclash hbest hpec hh hacc hent]

end Sys2Proof.Machine
end


section
/-!
PROOFS. The addresses of operands (20_memory.md R61 to R68), and the machine after reset.
-/

namespace Sys2Proof.Machine

/-! Short addresses -/

/-- The address of a word or byte GPR in a good bank does not wrap. -/
theorem gprAddr_ok {w : Width} {n : RegNum} {s : State} {step : Nat} (hz : s.hazIn.cp = false)
    (hb : bankOk s.cp = true) (hstep : step = match w with
      | .byte => 1
      | .word => 2) : ∃ d : Addr, gprAddr w n s = .ok d s ∧ d.toNat = s.cp.toNat + step * n.toNat := by
  obtain ⟨-, hle⟩ := bankOk_iff.mp hb
  have hn := n.isLt
  subst hstep
  cases w with
  | byte => exact ⟨near (s.cp + zext16 n), by simp [gprAddr, hz, hb], by simp [near, zext16]; omega⟩
  | word => exact ⟨near (s.cp + 2#16 * zext16 n), by simp [gprAddr, hz, hb], by simp [near, zext16]; omega⟩

/-- The address of the word of index `b` from a base in segment 0, where it does not wrap. -/
theorem near_index (base : Word) (b : Byte) (h : base.toNat + 2 * b.toNat < 0x10000) :
    (near (base + 2#16 * zext16 b)).toNat = base.toNat + 2 * b.toNat := by
  simp [near, zext16]
  omega

/-- Settles O8. -/
theorem shortAddresses : Obligations.ShortAddresses := by
  refine fun s w n b => ⟨fun hz => if_pos hz, fun hz hbad => ?badBank, fun hz he hle => ?gpr, fun hb => ?sfr,
    fun hb => ?regGpr, fun hb => ?bitRam, fun hb hb' => ?bitSfr, fun hb => ?bitGpr⟩
  case badBank =>
    have hb : ¬ bankOk s.cp = true := by
      rw [bankOk_iff]
      rintro ⟨he, hle⟩
      rcases hbad with h | h
      · exact absurd h (by simp [he])
      · omega
    simp [gprAddr, hz, hb]
  case gpr =>
    have hb := bankOk_iff.mpr ⟨he, hle⟩
    refine ⟨gprAddr_ok hz hb rfl, ?_⟩
    obtain ⟨d, hd, hn⟩ := gprAddr_ok (w := .byte) (n := n) (step := 1) hz hb rfl
    exact ⟨d, hd, by omega⟩
  case sfr =>
    have hlt : ¬ 0xF0#8 ≤ b := by rw [BitVec.le_def]; simp; omega
    refine ⟨_, if_neg hlt, ?_⟩
    cases s.extEsfr with
    | true => exact near_index 0xF000#16 b (by simp; omega)
    | false => exact near_index 0xFE00#16 b (by simp; omega)
  case regGpr =>
    exact if_pos (by rw [BitVec.le_def]; exact hb)
  case bitRam =>
    have hle : b ≤ 0x7F#8 := by rw [BitVec.le_def]; exact hb
    exact ⟨_, if_pos hle, near_index 0xFD00#16 b (by simp; omega)⟩
  case bitSfr =>
    have hlt : ¬ b ≤ 0x7F#8 := by rw [BitVec.le_def]; simp; omega
    have hle : b ≤ 0xEF#8 := by rw [BitVec.le_def]; exact hb'
    have hlow : (b &&& 0x7F#8).toNat = b.toNat - 0x80 := by
      rw [BitVec.toNat_and]
      refine (Nat.and_two_pow_sub_one_eq_mod b.toNat 7).trans ?_
      omega
    refine ⟨_, (if_neg hlt).trans (if_pos hle), ?_⟩
    rw [← hlow]
    cases s.extEsfr with
    | true => exact near_index 0xF100#16 _ (by rw [hlow]; simp; omega)
    | false => exact near_index 0xFF00#16 _ (by rw [hlow]; simp; omega)
  case bitGpr =>
    have hlt : ¬ b ≤ 0x7F#8 := by rw [BitVec.le_def]; simp; omega
    have hlt' : ¬ b ≤ 0xEF#8 := by rw [BitVec.le_def]; simp; omega
    exact (if_neg hlt).trans (if_neg hlt')

/-! Long addresses -/

/-- The number of two bit vectors side by side. -/
theorem append_toNat {m n : Nat} (x : BitVec m) (y : BitVec n) : (x ++ y).toNat = x.toNat * 2 ^ n + y.toNat := by
  rw [BitVec.toNat_append, ← Nat.shiftLeft_add_eq_or_of_lt y.isLt, Nat.shiftLeft_eq]

/-- A page or a DPP's page with the offset of a long address. -/
theorem page_toNat (p : BitVec 10) (a : Word) :
    (p ++ a.extractLsb' 0 14 : Addr).toNat = p.toNat * 0x4000 + a.toNat % 0x4000 := by
  rw [append_toNat, BitVec.extractLsb'_toNat]
  simp

/-- The DPP of a long address and its hazard, by the quarter of the 64 KByte. -/
theorem dpp_by_quarter (s : State) (a : Word) :
    (dppOf s (a.extractLsb' 14 2), dppHazard s (a.extractLsb' 14 2)) =
      if a.toNat < 0x4000 then (s.dpp0, s.hazIn.dpp0) else if a.toNat < 0x8000 then (s.dpp1, s.hazIn.dpp1)
      else if a.toNat < 0xC000 then (s.dpp2, s.hazIn.dpp2) else (s.dpp3, s.hazIn.dpp3) := by
  have ha := a.isLt
  have hq : (a.extractLsb' 14 2).toNat = a.toNat / 0x4000 := by
    rw [BitVec.extractLsb'_toNat, Nat.shiftRight_eq_div_pow]
    omega
  simp only [dppOf, dppHazard, hq]
  split_ifs with h1 h2 h3
  · have h : a.toNat / 0x4000 = 0 := by omega
    simp only [h]
  · have h : a.toNat / 0x4000 = 1 := by omega
    simp only [h]
  · have h : a.toNat / 0x4000 = 2 := by omega
    simp only [h]
  · have h : a.toNat / 0x4000 = 3 := by omega
    simp only [h]

theorem dataAddr_dpp {s : State} {a : Word} (ho : s.extOvr = .none) (hz : dppHazard s (a.extractLsb' 14 2) = false) :
    dataAddr a s = .ok (dppOf s (a.extractLsb' 14 2) ++ a.extractLsb' 0 14) s := by
  simp [dataAddr, ho, hz]

/-- Settles O9. -/
theorem longAddresses : Obligations.LongAddresses := by
  intro s a dpp written h
  rw [← dpp_by_quarter] at h
  obtain ⟨rfl, rfl⟩ := Prod.mk.injEq .. ▸ h
  refine ⟨fun ho hz => ⟨_, dataAddr_dpp ho hz, page_toNat _ a⟩, fun ho hz => by simp [dataAddr, ho, hz],
    fun p ho => ⟨p ++ a.extractLsb' 0 14, by simp [dataAddr, ho], page_toNat p a⟩,
    fun g ho => ⟨g ++ a, by simp [dataAddr, ho], append_toNat g a⟩⟩

/-! Reset -/

/-- After reset DPPi holds i, so a long address is its own. -/
theorem dataAddr_reset (a : Word) : dataAddr a State.reset = .ok (a.setWidth 24) State.reset := by
  have ha := a.isLt
  have hq := dpp_by_quarter State.reset a
  have hpage : (dppOf State.reset (a.extractLsb' 14 2)).toNat = a.toNat / 0x4000 ∧
      dppHazard State.reset (a.extractLsb' 14 2) = false := by
    split_ifs at hq with h1 h2 h3
    all_goals
      obtain ⟨hd, hz⟩ := Prod.mk.injEq .. ▸ hq
      refine ⟨?_, hz⟩
      rw [hd]
    · exact (show 0 = a.toNat / 0x4000 by omega)
    · exact (show 1 = a.toNat / 0x4000 by omega)
    · exact (show 2 = a.toNat / 0x4000 by omega)
    · exact (show 3 = a.toNat / 0x4000 by omega)
  rw [dataAddr_dpp rfl hpage.2]
  refine congrArg (Res.ok · State.reset) (BitVec.eq_of_toNat_eq ?_)
  rw [page_toNat, hpage.1, BitVec.toNat_setWidth]
  omega

/-- Settles O5. -/
theorem resetValues : Obligations.ResetValues := by
  refine ⟨fun r => ?_, fun r => ?_, rfl, rfl, rfl, rfl, rfl, rfl, rfl, rfl, rfl, dataAddr_reset⟩
  · cases r <;> rfl
  · cases r <;> rfl

/-! Pointers that are the data operand -/

theorem clashes_of_toNat {w : Width} {n k : RegNum} (h : (match w with
    | .word => n.toNat
    | .byte => n.toNat / 2) = k.toNat) : clashes w n k = true := by
  cases w with
  | word => exact beq_iff_eq.mpr (BitVec.eq_of_toNat_eq h)
  | byte => exact beq_iff_eq.mpr (BitVec.eq_of_toNat_eq (by simpa [Nat.shiftRight_eq_div_pow] using h))

/-- Settles O20. -/
theorem sameRegisterRefused : Obligations.SameRegisterRefused := by
  intro op w n m i s
  refine ⟨fun h => ?_, fun h => ?_, fun h => ?_⟩
  · have hi : (i.setWidth 4).toNat = i.toNat := by have := i.isLt; simp; omega
    have hc := clashes_of_toNat (h.trans hi.symm)
    rw [exec_aluIncInstr, exec_cmpIncInstr]
    exact ⟨seqInstr_refused (if_pos hc), seqInstr_refused (if_pos hc)⟩
  · have hc := clashes_of_toNat h
    rw [exec_moveFromIncInstr, exec_moveToDecInstr]
    exact ⟨seqInstr_refused (if_pos hc), seqInstr_refused (if_pos hc)⟩
  · rw [exec_moveIncIndInstr, exec_moveIndIncInstr]
    exact ⟨seqInstr_refused (if_pos h), seqInstr_refused (if_pos h)⟩

end Sys2Proof.Machine
end


section
/-!
PROOFS. Plain memory (20_memory.md R78, R79, R81): a load after a store, and the bytes no store touches.
-/

namespace Sys2Proof.Machine

/-- A byte stored in plain memory. -/
theorem pokeByte_ram {route : ByteRoute} {s t : State} {a : Addr} {v : Byte} (hp : place s a = .ram)
    (h : pokeByte route s a v = some t) : beyondBits s a = false ∧ t = setByte s a v := by
  unfold pokeByte at h
  split at h
  · exact absurd h (by simp)
  · next hb =>
    rw [hp] at h
    exact ⟨by simpa using hb, (Option.some.inj h).symm⟩

/-- A byte read from plain memory. -/
theorem peek_byte_ram {s : State} {a : Addr} (hp : place s a = .ram) (hb : beyondBits s a = false) :
    peek .byte s a = some (byteAt s a) := by
  simp [peek, hp, hb]

/-- The state that a store to an address outside the prefetch window leaves. -/
theorem pokeByte_of_pokeBy {route : ByteRoute} {s u : State} {nx : Word} {a : Addr} {v : Byte}
    (h : pokeBy route .byte s nx a v = some u) : pokeByte route s a v = some u := by
  simp only [pokeBy] at h
  split at h
  · exact absurd h (by simp)
  · exact h

theorem pokeWord_of_pokeBy {route : ByteRoute} {s u : State} {nx : Word} {a : Addr} {v : Word}
    (h : pokeBy route .word s nx a v = some u) : pokeWord s a v = some u := by
  simp only [pokeBy] at h
  split at h
  · exact absurd h (by simp)
  · exact h

/-- Settles O10. -/
theorem storeThenLoad : Obligations.StoreThenLoad := by
  refine fun route w s nx a v => ⟨fun u hp hu => ?ram, fun ho hw => ?window⟩
  case ram =>
    cases w with
    | byte =>
      obtain ⟨hb, rfl⟩ := pokeByte_ram hp (pokeByte_of_pokeBy hu)
      refine ⟨?_, fun b hb => ?_, fun h => absurd h (by simp)⟩
      · rw [peek_byte_ram (s := setByte s a v) hp hb, byteAt_setByte, if_pos rfl]
      · rw [byteAt_setByte, if_neg fun h => hb (.inl h)]
    | word =>
      obtain ⟨ho, hb, rfl⟩ := pokeWord_ram hp (pokeWord_of_pokeBy hu)
      have hv : (v.setWidth 16 : Word) = v := BitVec.setWidth_eq v
      refine ⟨?_, fun b hb => ?_, fun _ => ?_⟩
      · rw [peek_ram (s := setWord s a v) hp ho hb, wordAt_setWord]
      · rw [byteAt_setWord, if_neg fun h => hb (.inr ⟨rfl, h⟩), if_neg fun h => hb (.inl h)]
      · rw [hv, byteAt_setWord, byteAt_setWord, if_neg (by simp), if_pos rfl, if_pos rfl]
        exact ⟨rfl, rfl⟩
  case window =>
    obtain ⟨b, hb, hseg, hdist⟩ := hw
    have hin : inWindow s nx b = true := Bool.and_eq_true_iff.mpr ⟨beq_iff_eq.mpr hseg, decide_eq_true hdist⟩
    cases w with
    | byte =>
      obtain rfl : b = a := hb.resolve_right fun h => absurd h.1 (by simp)
      exact if_pos hin
    | word =>
      have hwin : (inWindow s nx a || inWindow s nx (a + 1)) = true := by
        rcases hb with rfl | ⟨-, rfl⟩
        · rw [hin, Bool.true_or]
        · rw [hin, Bool.or_true]
      exact (if_neg (ne_true_of_eq_false (ho rfl))).trans (if_pos hwin)

end Sys2Proof.Machine
end

section
/-!
PROOFS. The CPU registers (10_state.md R26 to R40): whatever way a store names a register's word, it is a write of one
value to that register.
-/

namespace Sys2Proof.Machine

section
variable {r : CpuReg} {s u : State} {a : Addr}

/-- A word store where a CPU register lies. -/
theorem pokeWord_reg {v : Word} (hp : place s a = .reg r) (h : pokeWord s a v = some u) : u = putCpuReg r v s := by
  unfold pokeWord at h
  split at h
  · exact absurd h (by simp)
  · rw [hp] at h
    simp only at h
    split at h
    · exact (Option.some.inj h).symm
    · exact absurd h (by simp)

/-- A byte store where a CPU register lies. -/
theorem pokeByte_reg {route : ByteRoute} {b : Byte} (hp : place s a = .reg r) (h : pokeByte route s a b = some u) :
    u = putCpuReg r (byteIntoReg route r a b s) s := by
  unfold pokeByte at h
  split at h
  · exact absurd h (by simp)
  · rw [hp] at h
    simp only at h
    split at h
    · exact (Option.some.inj h).symm
    · exact absurd h (by simp)

/-- The word that a byte at an address leaves in a register, low half and high half. -/
theorem byteIntoReg_address_low (b : Byte) (ho : isOdd a = false) : byteIntoReg .address r a b s =
    (if r = .psw then 0#8 else (readCpuReg r s).extractLsb' 8 8) ++ b := by
  by_cases h : r = .psw <;> simp [byteIntoReg, h, placeByte, replaceByte, ho, joinBytes, hiByte]

theorem byteIntoReg_address_high (b : Byte) (ho : isOdd a = true) : byteIntoReg .address r a b s =
    b ++ (if r = .psw then 0#8 else (readCpuReg r s).extractLsb' 0 8) := by
  by_cases h : r = .psw <;> simp [byteIntoReg, h, placeByte, replaceByte, ho, joinBytes, loByte]

/-- The word that a byte GPR leaves in a register, low half and high half. -/
theorem byteIntoReg_gpr_low (b : Byte) (ho : isOdd a = false) :
    byteIntoReg .gpr r a b s = (readCpuReg r s).extractLsb' 8 8 ++ b := by
  simp [byteIntoReg, replaceByte, ho, joinBytes, hiByte]

theorem byteIntoReg_gpr_high (b : Byte) (ho : isOdd a = true) :
    byteIntoReg .gpr r a b s = b ++ (readCpuReg r s).extractLsb' 0 8 := by
  simp [byteIntoReg, replaceByte, ho, joinBytes, loByte]

/-- `Rb`, and `reg` from F0h, name byte GPRs. -/
theorem pokeLoc_byteGpr {l : Loc} {nx : Word} {b : Byte}
    (hl : (∃ n, l = .gpr n) ∨ ∃ rr : ShortReg, 0xF0 ≤ rr.toNat ∧ l = .short rr) :
    pokeLoc .byte l s nx a b = pokeBy .gpr .byte s nx a b := by
  rcases hl with ⟨n, rfl⟩ | ⟨rr, hrr, rfl⟩
  · rfl
  · have hle : 0xF0#8 ≤ rr := by rw [BitVec.le_def]; exact hrr
    have hlt : ¬ rr < 0xF0#8 := BitVec.not_lt.mpr hle
    simp [pokeLoc, storesWord, byteRoute, hle, hlt]

/-- A byte through `reg` below F0h is the word store of the byte with a zero above it. -/
theorem pokeLoc_byteReg {rr : ShortReg} {nx : Word} {b : Byte} (hrr : rr.toNat < 0xF0) :
    pokeLoc .byte (.short rr) s nx a b = poke .word s nx a (b.setWidth 16) := by
  have hlt : rr < 0xF0#8 := by rw [BitVec.lt_def]; exact hrr
  simp [pokeLoc, storesWord, hlt]

/-- What a register reads after a write of it. -/
theorem readCpuReg_putCpuReg_same (r : CpuReg) (x : Word) (s : State) : readCpuReg r (putCpuReg r x s) =
    match r with
    | .dpp0 => x &&& 0x03FF#16
    | .dpp1 => x &&& 0x03FF#16
    | .dpp2 => x &&& 0x03FF#16
    | .dpp3 => x &&& 0x03FF#16
    | .csp => s.csp.setWidth 16
    | .cp => (x ||| s.par.cpFixed.ones) &&& ~~~s.par.cpFixed.zeros
    | .sp => x &&& 0xFFFE#16
    | .psw => x &&& pswMask s.par.psw
    | .tfr => x &&& tfrMask s.par.traps
    | .zeros => 0x0000#16
    | .ones => 0xFFFF#16
    | _ => x := by
  have hpage : zext16 (x.extractLsb' 0 10) = x &&& 0x03FF#16 := by
    refine BitVec.eq_of_toNat_eq ?_
    rw [BitVec.toNat_setWidth, BitVec.extractLsb'_toNat, BitVec.toNat_and]
    refine Eq.trans ?_ (Nat.and_two_pow_sub_one_eq_mod x.toNat 10).symm
    simp
    omega
  cases r with
  | dpp0 | dpp1 | dpp2 | dpp3 => exact hpage
  | _ => rfl

/-- The hazards that a write of a register records. -/
theorem putCpuReg_hazOut_eq (r : CpuReg) (x : Word) (s : State) : (putCpuReg r x s).hazOut =
    { cp := s.hazOut.cp || decide (r = .cp)
      sp := s.hazOut.sp || decide (r = .sp)
      syscon := s.hazOut.syscon || decide (r = .syscon)
      dpp0 := s.hazOut.dpp0 || decide (r = .dpp0)
      dpp1 := s.hazOut.dpp1 || decide (r = .dpp1)
      dpp2 := s.hazOut.dpp2 || decide (r = .dpp2)
      dpp3 := s.hazOut.dpp3 || decide (r = .dpp3) } := by
  cases r <;> simp [putCpuReg]

end

/-- Settles O11: in each of the ways a store names the register, it is one write of the value `x`. -/
theorem registerWrites : Obligations.RegisterWrites := by
  refine ⟨by decide, by decide, rfl, fun r s hl => ?_⟩
  have he := hl.even r
  have hp : place s (sfrAddr s.par.sfr r) = .reg r := place_of_sfrAddr hl (evenAddr_of_even he)
  have hp' : place s (sfrAddr s.par.sfr r + 1) = .reg r := place_of_sfrAddr hl (evenAddr_succ_of_even he)
  have ho := isOdd_succ_of_even he
  refine ⟨fun u nx v x b h => ?writes, fun v hb => ⟨?_, ?_⟩⟩
  case writes =>
    have hu : u = putCpuReg r x s := by
      rcases h with ⟨h, rfl⟩ | ⟨h, rfl⟩ | ⟨h, rfl⟩ | ⟨rr, hrr, h, rfl⟩ | ⟨l, hgpr, ⟨h, rfl⟩ | ⟨h, rfl⟩⟩
      · exact pokeWord_reg hp (pokeWord_of_pokeBy h)
      · rw [← byteIntoReg_address_low b he]
        exact pokeByte_reg hp (pokeByte_of_pokeBy h)
      · rw [← byteIntoReg_address_high b ho]
        exact pokeByte_reg hp' (pokeByte_of_pokeBy h)
      · rw [pokeLoc_byteReg hrr] at h
        exact pokeWord_reg hp (pokeWord_of_pokeBy h)
      · rw [pokeLoc_byteGpr hgpr] at h
        rw [← byteIntoReg_gpr_low b he]
        exact pokeByte_reg hp (pokeByte_of_pokeBy h)
      · rw [pokeLoc_byteGpr hgpr] at h
        rw [← byteIntoReg_gpr_high b ho]
        exact pokeByte_reg hp' (pokeByte_of_pokeBy h)
    subst hu
    exact ⟨fun q hq => readCpuReg_putCpuReg_other s x hq, putCpuReg_mem r x s, readCpuReg_putCpuReg_same r x s,
      putCpuReg_hazOut_eq r x s⟩
  · rintro rfl hi
    simp [storeWord, hb, hp, writeCpuReg, cpuRegRefusal, hi]
  · rintro rfl hv
    simp [storeWord, hb, hp, writeCpuReg, cpuRegRefusal, hv]

end Sys2Proof.Machine
end
